-- ==== Sys2Proof/Word.lean ====
section
/-!
DEFINITION. The machine's word and byte (spec 00_scope.md rule R7, 20_memory.md rule R60).
-/

namespace Sys2Proof

/-- A register, an operand, an address, an instruction word: 32 bits (rule R7). -/
abbrev Word := BitVec 32

/-- The smallest addressable unit of memory (rule R60). -/
abbrev Byte := BitVec 8

/-- A 4-bit register field of an instruction: R0 to R15 (rules R10, R20). -/
abbrev Reg := BitVec 4

end Sys2Proof
end

