-- ==== Sys2Proof/Syntax.lean ====
section
/-!
DEFINITION. The instruction set: one constructor for each of the 103 rows of
spec/opcode_table.json, in the table's order, with the row's variable fields as
arguments in the order of the word, high bits first (spec 30_encoding.md). A
field that a row fixes (SBZ, SBO, the bits I, P, B, L) is no argument.
-/

namespace Sys2Proof

/-- The fifteen condition suffixes, in the order of their codes (rules R91, R151). -/
inductive Cond where
  | eq | ne | cs | cc | mi | pl | vs | vc | hi | ls | ge | lt | gt | le | al
  deriving DecidableEq, Repr

/-- The shift types of the field Sh; `ror` with the amount 0 of the
instruction-specified form is RRX, and ASL is `lsl` (rules R109, R127). -/
inductive ShiftType where
  | lsl | lsr | asr | ror
  deriving DecidableEq, Repr

/-- Which status register MRS and MSR name, the bit R (rules R103, R104). -/
inductive PsrSel where
  | cpsr | spsr
  deriving DecidableEq, Repr

/-- One constructor per row of spec/opcode_table.json. `c` is the condition, `sf`
the S bit, `u` and `w` the bits U and W of rule R106, `sh` and `shiftImm` the
shift fields of rule R94, `h` the H bit of rule R102. -/
inductive Instr where
  /-- AND, immediate Operand2 (rules R93, R204). -/
  | andImm (c : Cond) (sf : Bool) (rn rd : Reg) (rotate : BitVec 4) (imm8 : BitVec 8)
  /-- AND, register shifted by an amount in the word (rules R94, R204). -/
  | andShiftImm (c : Cond) (sf : Bool) (rn rd : Reg) (shiftImm : BitVec 5) (sh : ShiftType) (rm : Reg)
  /-- AND, register shifted by a register (rules R95, R204). -/
  | andShiftReg (c : Cond) (sf : Bool) (rn rd rs : Reg) (sh : ShiftType) (rm : Reg)
  /-- EOR, immediate Operand2 (rules R93, R205). -/
  | eorImm (c : Cond) (sf : Bool) (rn rd : Reg) (rotate : BitVec 4) (imm8 : BitVec 8)
  /-- EOR, register shifted by an amount in the word (rules R94, R205). -/
  | eorShiftImm (c : Cond) (sf : Bool) (rn rd : Reg) (shiftImm : BitVec 5) (sh : ShiftType) (rm : Reg)
  /-- EOR, register shifted by a register (rules R95, R205). -/
  | eorShiftReg (c : Cond) (sf : Bool) (rn rd rs : Reg) (sh : ShiftType) (rm : Reg)
  /-- SUB, immediate Operand2 (rules R93, R206). -/
  | subImm (c : Cond) (sf : Bool) (rn rd : Reg) (rotate : BitVec 4) (imm8 : BitVec 8)
  /-- SUB, register shifted by an amount in the word (rules R94, R206). -/
  | subShiftImm (c : Cond) (sf : Bool) (rn rd : Reg) (shiftImm : BitVec 5) (sh : ShiftType) (rm : Reg)
  /-- SUB, register shifted by a register (rules R95, R206). -/
  | subShiftReg (c : Cond) (sf : Bool) (rn rd rs : Reg) (sh : ShiftType) (rm : Reg)
  /-- RSB, immediate Operand2 (rules R93, R207). -/
  | rsbImm (c : Cond) (sf : Bool) (rn rd : Reg) (rotate : BitVec 4) (imm8 : BitVec 8)
  /-- RSB, register shifted by an amount in the word (rules R94, R207). -/
  | rsbShiftImm (c : Cond) (sf : Bool) (rn rd : Reg) (shiftImm : BitVec 5) (sh : ShiftType) (rm : Reg)
  /-- RSB, register shifted by a register (rules R95, R207). -/
  | rsbShiftReg (c : Cond) (sf : Bool) (rn rd rs : Reg) (sh : ShiftType) (rm : Reg)
  /-- ADD, immediate Operand2 (rules R93, R208). -/
  | addImm (c : Cond) (sf : Bool) (rn rd : Reg) (rotate : BitVec 4) (imm8 : BitVec 8)
  /-- ADD, register shifted by an amount in the word (rules R94, R208). -/
  | addShiftImm (c : Cond) (sf : Bool) (rn rd : Reg) (shiftImm : BitVec 5) (sh : ShiftType) (rm : Reg)
  /-- ADD, register shifted by a register (rules R95, R208). -/
  | addShiftReg (c : Cond) (sf : Bool) (rn rd rs : Reg) (sh : ShiftType) (rm : Reg)
  /-- ADC, immediate Operand2 (rules R93, R209). -/
  | adcImm (c : Cond) (sf : Bool) (rn rd : Reg) (rotate : BitVec 4) (imm8 : BitVec 8)
  /-- ADC, register shifted by an amount in the word (rules R94, R209). -/
  | adcShiftImm (c : Cond) (sf : Bool) (rn rd : Reg) (shiftImm : BitVec 5) (sh : ShiftType) (rm : Reg)
  /-- ADC, register shifted by a register (rules R95, R209). -/
  | adcShiftReg (c : Cond) (sf : Bool) (rn rd rs : Reg) (sh : ShiftType) (rm : Reg)
  /-- SBC, immediate Operand2 (rules R93, R210). -/
  | sbcImm (c : Cond) (sf : Bool) (rn rd : Reg) (rotate : BitVec 4) (imm8 : BitVec 8)
  /-- SBC, register shifted by an amount in the word (rules R94, R210). -/
  | sbcShiftImm (c : Cond) (sf : Bool) (rn rd : Reg) (shiftImm : BitVec 5) (sh : ShiftType) (rm : Reg)
  /-- SBC, register shifted by a register (rules R95, R210). -/
  | sbcShiftReg (c : Cond) (sf : Bool) (rn rd rs : Reg) (sh : ShiftType) (rm : Reg)
  /-- RSC, immediate Operand2 (rules R93, R211). -/
  | rscImm (c : Cond) (sf : Bool) (rn rd : Reg) (rotate : BitVec 4) (imm8 : BitVec 8)
  /-- RSC, register shifted by an amount in the word (rules R94, R211). -/
  | rscShiftImm (c : Cond) (sf : Bool) (rn rd : Reg) (shiftImm : BitVec 5) (sh : ShiftType) (rm : Reg)
  /-- RSC, register shifted by a register (rules R95, R211). -/
  | rscShiftReg (c : Cond) (sf : Bool) (rn rd rs : Reg) (sh : ShiftType) (rm : Reg)
  /-- TST, immediate Operand2 (rules R93, R212). -/
  | tstImm (c : Cond) (rn : Reg) (rotate : BitVec 4) (imm8 : BitVec 8)
  /-- TST, register shifted by an amount in the word (rules R94, R212). -/
  | tstShiftImm (c : Cond) (rn : Reg) (shiftImm : BitVec 5) (sh : ShiftType) (rm : Reg)
  /-- TST, register shifted by a register (rules R95, R212). -/
  | tstShiftReg (c : Cond) (rn rs : Reg) (sh : ShiftType) (rm : Reg)
  /-- TEQ, immediate Operand2 (rules R93, R213). -/
  | teqImm (c : Cond) (rn : Reg) (rotate : BitVec 4) (imm8 : BitVec 8)
  /-- TEQ, register shifted by an amount in the word (rules R94, R213). -/
  | teqShiftImm (c : Cond) (rn : Reg) (shiftImm : BitVec 5) (sh : ShiftType) (rm : Reg)
  /-- TEQ, register shifted by a register (rules R95, R213). -/
  | teqShiftReg (c : Cond) (rn rs : Reg) (sh : ShiftType) (rm : Reg)
  /-- CMP, immediate Operand2 (rules R93, R214). -/
  | cmpImm (c : Cond) (rn : Reg) (rotate : BitVec 4) (imm8 : BitVec 8)
  /-- CMP, register shifted by an amount in the word (rules R94, R214). -/
  | cmpShiftImm (c : Cond) (rn : Reg) (shiftImm : BitVec 5) (sh : ShiftType) (rm : Reg)
  /-- CMP, register shifted by a register (rules R95, R214). -/
  | cmpShiftReg (c : Cond) (rn rs : Reg) (sh : ShiftType) (rm : Reg)
  /-- CMN, immediate Operand2 (rules R93, R215). -/
  | cmnImm (c : Cond) (rn : Reg) (rotate : BitVec 4) (imm8 : BitVec 8)
  /-- CMN, register shifted by an amount in the word (rules R94, R215). -/
  | cmnShiftImm (c : Cond) (rn : Reg) (shiftImm : BitVec 5) (sh : ShiftType) (rm : Reg)
  /-- CMN, register shifted by a register (rules R95, R215). -/
  | cmnShiftReg (c : Cond) (rn rs : Reg) (sh : ShiftType) (rm : Reg)
  /-- ORR, immediate Operand2 (rules R93, R216). -/
  | orrImm (c : Cond) (sf : Bool) (rn rd : Reg) (rotate : BitVec 4) (imm8 : BitVec 8)
  /-- ORR, register shifted by an amount in the word (rules R94, R216). -/
  | orrShiftImm (c : Cond) (sf : Bool) (rn rd : Reg) (shiftImm : BitVec 5) (sh : ShiftType) (rm : Reg)
  /-- ORR, register shifted by a register (rules R95, R216). -/
  | orrShiftReg (c : Cond) (sf : Bool) (rn rd rs : Reg) (sh : ShiftType) (rm : Reg)
  /-- MOV, immediate Operand2 (rules R93, R217). -/
  | movImm (c : Cond) (sf : Bool) (rd : Reg) (rotate : BitVec 4) (imm8 : BitVec 8)
  /-- MOV, register shifted by an amount in the word (rules R94, R217). -/
  | movShiftImm (c : Cond) (sf : Bool) (rd : Reg) (shiftImm : BitVec 5) (sh : ShiftType) (rm : Reg)
  /-- MOV, register shifted by a register (rules R95, R217). -/
  | movShiftReg (c : Cond) (sf : Bool) (rd rs : Reg) (sh : ShiftType) (rm : Reg)
  /-- BIC, immediate Operand2 (rules R93, R218). -/
  | bicImm (c : Cond) (sf : Bool) (rn rd : Reg) (rotate : BitVec 4) (imm8 : BitVec 8)
  /-- BIC, register shifted by an amount in the word (rules R94, R218). -/
  | bicShiftImm (c : Cond) (sf : Bool) (rn rd : Reg) (shiftImm : BitVec 5) (sh : ShiftType) (rm : Reg)
  /-- BIC, register shifted by a register (rules R95, R218). -/
  | bicShiftReg (c : Cond) (sf : Bool) (rn rd rs : Reg) (sh : ShiftType) (rm : Reg)
  /-- MVN, immediate Operand2 (rules R93, R219). -/
  | mvnImm (c : Cond) (sf : Bool) (rd : Reg) (rotate : BitVec 4) (imm8 : BitVec 8)
  /-- MVN, register shifted by an amount in the word (rules R94, R219). -/
  | mvnShiftImm (c : Cond) (sf : Bool) (rd : Reg) (shiftImm : BitVec 5) (sh : ShiftType) (rm : Reg)
  /-- MVN, register shifted by a register (rules R95, R219). -/
  | mvnShiftReg (c : Cond) (sf : Bool) (rd rs : Reg) (sh : ShiftType) (rm : Reg)
  /-- MUL (rules R98, R251). -/
  | mul (c : Cond) (sf : Bool) (rd rs rm : Reg)
  /-- MLA (rules R98, R252). -/
  | mla (c : Cond) (sf : Bool) (rd rn rs rm : Reg)
  /-- UMULL (rules R99, R253). -/
  | umull (c : Cond) (sf : Bool) (rdHi rdLo rs rm : Reg)
  /-- UMLAL (rules R99, R254). -/
  | umlal (c : Cond) (sf : Bool) (rdHi rdLo rs rm : Reg)
  /-- SMULL (rules R99, R255). -/
  | smull (c : Cond) (sf : Bool) (rdHi rdLo rs rm : Reg)
  /-- SMLAL (rules R99, R256). -/
  | smlal (c : Cond) (sf : Bool) (rdHi rdLo rs rm : Reg)
  /-- B (rules R100, R131). -/
  | b (c : Cond) (imm24 : BitVec 24)
  /-- BL (rules R100, R132). -/
  | bl (c : Cond) (imm24 : BitVec 24)
  /-- BX (rules R101, R133). -/
  | bx (c : Cond) (rm : Reg)
  /-- BLX with a register (rules R101, R134). -/
  | blxReg (c : Cond) (rm : Reg)
  /-- BLX with a label, unconditional (rules R102, R135). -/
  | blxLabel (h : Bool) (imm24 : BitVec 24)
  /-- MRS (rules R103, R271). -/
  | mrs (c : Cond) (psr : PsrSel) (rd : Reg)
  /-- MSR with an immediate (rules R104, R272). -/
  | msrImm (c : Cond) (psr : PsrSel) (fieldMask rotate : BitVec 4) (imm8 : BitVec 8)
  /-- MSR with a register (rules R105, R273). -/
  | msrReg (c : Cond) (psr : PsrSel) (fieldMask : BitVec 4) (rm : Reg)
  /-- LDR, immediate offset, offset or pre-indexed (rules R106, R293). -/
  | ldrImmPre (c : Cond) (u w : Bool) (rn rd : Reg) (imm12 : BitVec 12)
  /-- LDR, immediate offset, post-indexed (rules R106, R293). -/
  | ldrImmPost (c : Cond) (u : Bool) (rn rd : Reg) (imm12 : BitVec 12)
  /-- LDR, shifted register offset, offset or pre-indexed (rules R106, R293). -/
  | ldrRegPre (c : Cond) (u w : Bool) (rn rd : Reg) (shiftImm : BitVec 5) (sh : ShiftType) (rm : Reg)
  /-- LDR, shifted register offset, post-indexed (rules R106, R293). -/
  | ldrRegPost (c : Cond) (u : Bool) (rn rd : Reg) (shiftImm : BitVec 5) (sh : ShiftType) (rm : Reg)
  /-- STR, immediate offset, offset or pre-indexed (rules R106, R294). -/
  | strImmPre (c : Cond) (u w : Bool) (rn rd : Reg) (imm12 : BitVec 12)
  /-- STR, immediate offset, post-indexed (rules R106, R294). -/
  | strImmPost (c : Cond) (u : Bool) (rn rd : Reg) (imm12 : BitVec 12)
  /-- STR, shifted register offset, offset or pre-indexed (rules R106, R294). -/
  | strRegPre (c : Cond) (u w : Bool) (rn rd : Reg) (shiftImm : BitVec 5) (sh : ShiftType) (rm : Reg)
  /-- STR, shifted register offset, post-indexed (rules R106, R294). -/
  | strRegPost (c : Cond) (u : Bool) (rn rd : Reg) (shiftImm : BitVec 5) (sh : ShiftType) (rm : Reg)
  /-- LDRB, immediate offset, offset or pre-indexed (rules R106, R295). -/
  | ldrbImmPre (c : Cond) (u w : Bool) (rn rd : Reg) (imm12 : BitVec 12)
  /-- LDRB, immediate offset, post-indexed (rules R106, R295). -/
  | ldrbImmPost (c : Cond) (u : Bool) (rn rd : Reg) (imm12 : BitVec 12)
  /-- LDRB, shifted register offset, offset or pre-indexed (rules R106, R295). -/
  | ldrbRegPre (c : Cond) (u w : Bool) (rn rd : Reg) (shiftImm : BitVec 5) (sh : ShiftType) (rm : Reg)
  /-- LDRB, shifted register offset, post-indexed (rules R106, R295). -/
  | ldrbRegPost (c : Cond) (u : Bool) (rn rd : Reg) (shiftImm : BitVec 5) (sh : ShiftType) (rm : Reg)
  /-- STRB, immediate offset, offset or pre-indexed (rules R106, R296). -/
  | strbImmPre (c : Cond) (u w : Bool) (rn rd : Reg) (imm12 : BitVec 12)
  /-- STRB, immediate offset, post-indexed (rules R106, R296). -/
  | strbImmPost (c : Cond) (u : Bool) (rn rd : Reg) (imm12 : BitVec 12)
  /-- STRB, shifted register offset, offset or pre-indexed (rules R106, R296). -/
  | strbRegPre (c : Cond) (u w : Bool) (rn rd : Reg) (shiftImm : BitVec 5) (sh : ShiftType) (rm : Reg)
  /-- STRB, shifted register offset, post-indexed (rules R106, R296). -/
  | strbRegPost (c : Cond) (u : Bool) (rn rd : Reg) (shiftImm : BitVec 5) (sh : ShiftType) (rm : Reg)
  /-- LDRT, immediate offset (rules R106, R297). -/
  | ldrtImm (c : Cond) (u : Bool) (rn rd : Reg) (imm12 : BitVec 12)
  /-- LDRT, shifted register offset (rules R106, R297). -/
  | ldrtReg (c : Cond) (u : Bool) (rn rd : Reg) (shiftImm : BitVec 5) (sh : ShiftType) (rm : Reg)
  /-- STRT, immediate offset (rules R106, R298). -/
  | strtImm (c : Cond) (u : Bool) (rn rd : Reg) (imm12 : BitVec 12)
  /-- STRT, shifted register offset (rules R106, R298). -/
  | strtReg (c : Cond) (u : Bool) (rn rd : Reg) (shiftImm : BitVec 5) (sh : ShiftType) (rm : Reg)
  /-- LDRBT, immediate offset (rules R106, R299). -/
  | ldrbtImm (c : Cond) (u : Bool) (rn rd : Reg) (imm12 : BitVec 12)
  /-- LDRBT, shifted register offset (rules R106, R299). -/
  | ldrbtReg (c : Cond) (u : Bool) (rn rd : Reg) (shiftImm : BitVec 5) (sh : ShiftType) (rm : Reg)
  /-- STRBT, immediate offset (rules R106, R300). -/
  | strbtImm (c : Cond) (u : Bool) (rn rd : Reg) (imm12 : BitVec 12)
  /-- STRBT, shifted register offset (rules R106, R300). -/
  | strbtReg (c : Cond) (u : Bool) (rn rd : Reg) (shiftImm : BitVec 5) (sh : ShiftType) (rm : Reg)
  /-- LDRH, immediate offset, offset or pre-indexed (rules R107, R302). -/
  | ldrhImmPre (c : Cond) (u w : Bool) (rn rd : Reg) (immH immL : BitVec 4)
  /-- LDRH, immediate offset, post-indexed (rules R107, R302). -/
  | ldrhImmPost (c : Cond) (u : Bool) (rn rd : Reg) (immH immL : BitVec 4)
  /-- LDRH, register offset, offset or pre-indexed (rules R107, R302). -/
  | ldrhRegPre (c : Cond) (u w : Bool) (rn rd rm : Reg)
  /-- LDRH, register offset, post-indexed (rules R107, R302). -/
  | ldrhRegPost (c : Cond) (u : Bool) (rn rd rm : Reg)
  /-- STRH, immediate offset, offset or pre-indexed (rules R107, R303). -/
  | strhImmPre (c : Cond) (u w : Bool) (rn rd : Reg) (immH immL : BitVec 4)
  /-- STRH, immediate offset, post-indexed (rules R107, R303). -/
  | strhImmPost (c : Cond) (u : Bool) (rn rd : Reg) (immH immL : BitVec 4)
  /-- STRH, register offset, offset or pre-indexed (rules R107, R303). -/
  | strhRegPre (c : Cond) (u w : Bool) (rn rd rm : Reg)
  /-- STRH, register offset, post-indexed (rules R107, R303). -/
  | strhRegPost (c : Cond) (u : Bool) (rn rd rm : Reg)
  /-- LDRSB, immediate offset, offset or pre-indexed (rules R107, R304). -/
  | ldrsbImmPre (c : Cond) (u w : Bool) (rn rd : Reg) (immH immL : BitVec 4)
  /-- LDRSB, immediate offset, post-indexed (rules R107, R304). -/
  | ldrsbImmPost (c : Cond) (u : Bool) (rn rd : Reg) (immH immL : BitVec 4)
  /-- LDRSB, register offset, offset or pre-indexed (rules R107, R304). -/
  | ldrsbRegPre (c : Cond) (u w : Bool) (rn rd rm : Reg)
  /-- LDRSB, register offset, post-indexed (rules R107, R304). -/
  | ldrsbRegPost (c : Cond) (u : Bool) (rn rd rm : Reg)
  /-- LDRSH, immediate offset, offset or pre-indexed (rules R107, R305). -/
  | ldrshImmPre (c : Cond) (u w : Bool) (rn rd : Reg) (immH immL : BitVec 4)
  /-- LDRSH, immediate offset, post-indexed (rules R107, R305). -/
  | ldrshImmPost (c : Cond) (u : Bool) (rn rd : Reg) (immH immL : BitVec 4)
  /-- LDRSH, register offset, offset or pre-indexed (rules R107, R305). -/
  | ldrshRegPre (c : Cond) (u w : Bool) (rn rd rm : Reg)
  /-- LDRSH, register offset, post-indexed (rules R107, R305). -/
  | ldrshRegPost (c : Cond) (u : Bool) (rn rd rm : Reg)
  /-- A word of the undefined-instruction space, with its free bits 24:5 and 3:0 (rule R113). -/
  | undefined (c : Cond) (hi : BitVec 20) (lo : BitVec 4)
  deriving DecidableEq, Repr

end Sys2Proof
end

