-- ==== Sys2Proof/WellFormed.lean ====
section
/-!
DEFINITION. The operand restrictions: the register choices the spec calls
UNPREDICTABLE and refuses whatever the condition (10_state.md rule R22,
41_conditional_execution.md rule R153). An instruction that breaks none is
well formed. Each meaning of Machine/ asks the function of its shape below.
-/

namespace Sys2Proof

/-- The restrictions, one for each row of the rules R185, R257, R133, R134,
R271, R273 and R306. -/
inductive Restriction where
  /-- R15 as Rd, Rn, Rm or Rs with a register-specified shift (rule R185). -/
  | shiftRegR15
  /-- R15 as a multiply operand (rule R257). -/
  | multiplyR15
  /-- Rd = Rm in MUL or MLA (rule R257). -/
  | multiplyRdRm
  /-- RdHi, RdLo and Rm of a long multiply not all different (rule R257). -/
  | longMultiplyRegs
  /-- BX with R15 (rule R133). -/
  | bxR15
  /-- BLX with R15 (rule R134). -/
  | blxR15
  /-- MRS to R15 (rule R271). -/
  | mrsR15
  /-- MSR from R15 (rule R273). -/
  | msrR15
  /-- A register offset with Rm = R15 (rule R306). -/
  | offsetR15
  /-- Write-back with Rn = R15 (rule R306). -/
  | writebackR15
  /-- Write-back with Rn = Rd (rule R306). -/
  | writebackRnRd
  /-- Write-back with a register offset and Rm = Rn (rule R306). -/
  | writebackRmRn
  /-- Rd = R15 in a transfer other than LDR and STR (rule R306). -/
  | transferR15
  /-- STR of R15, whose stored value is implementation defined (rule R306). -/
  | storeR15
  deriving DecidableEq, Repr

/-- Rule R185, for a data-processing word with a register-specified shift. A
field the row does not have (SBZ) is passed as 0. -/
def shiftRegRestriction (rn rd rs rm : Reg) : Option Restriction :=
  if rn = 15 ∨ rd = 15 ∨ rs = 15 ∨ rm = 15 then some .shiftRegR15 else none

/-- Rule R257, for MUL and MLA; MUL passes 0 for the Rn it does not have. -/
def mulRestriction (rd rn rs rm : Reg) : Option Restriction :=
  if rd = 15 ∨ rn = 15 ∨ rs = 15 ∨ rm = 15 then some .multiplyR15
  else if rd = rm then some .multiplyRdRm else none

/-- Rule R257, for the long multiplies. -/
def mullRestriction (rdHi rdLo rs rm : Reg) : Option Restriction :=
  if rdHi = 15 ∨ rdLo = 15 ∨ rs = 15 ∨ rm = 15 then some .multiplyR15
  else if rdHi = rdLo ∨ rdHi = rm ∨ rdLo = rm then some .longMultiplyRegs else none

/-- Refuses a register that must not be R15, under the given name. -/
def notR15 (why : Restriction) (r : Reg) : Option Restriction :=
  if r = 15 then some why else none

/-- Rule R306: `rd15` is what Rd = R15 breaks (nothing, for LDR), `wb` says that
the transfer writes its base back, `rm` is the offset register if there is one. -/
def transferRestriction (rd15 : Option Restriction) (wb : Bool) (rn rd : Reg)
    (rm : Option Reg) : Option Restriction :=
  if rm = some 15 then some .offsetR15
  else if wb = true ∧ rn = 15 then some .writebackR15
  else if wb = true ∧ rn = rd then some .writebackRnRd
  else if wb = true ∧ rm = some rn then some .writebackRmRn
  else if rd = 15 then rd15 else none

/-- The restriction an instruction breaks, if any. -/
def Instr.restriction (i : Instr) : Option Restriction :=
  match i with
  | .andImm _ _ _ _ _ _
  | .eorImm _ _ _ _ _ _
  | .subImm _ _ _ _ _ _
  | .rsbImm _ _ _ _ _ _
  | .addImm _ _ _ _ _ _
  | .adcImm _ _ _ _ _ _
  | .sbcImm _ _ _ _ _ _
  | .rscImm _ _ _ _ _ _
  | .tstImm _ _ _ _
  | .teqImm _ _ _ _
  | .cmpImm _ _ _ _
  | .cmnImm _ _ _ _
  | .orrImm _ _ _ _ _ _
  | .movImm _ _ _ _ _
  | .bicImm _ _ _ _ _ _
  | .mvnImm _ _ _ _ _
  | .andShiftImm _ _ _ _ _ _ _
  | .eorShiftImm _ _ _ _ _ _ _
  | .subShiftImm _ _ _ _ _ _ _
  | .rsbShiftImm _ _ _ _ _ _ _
  | .addShiftImm _ _ _ _ _ _ _
  | .adcShiftImm _ _ _ _ _ _ _
  | .sbcShiftImm _ _ _ _ _ _ _
  | .rscShiftImm _ _ _ _ _ _ _
  | .tstShiftImm _ _ _ _ _
  | .teqShiftImm _ _ _ _ _
  | .cmpShiftImm _ _ _ _ _
  | .cmnShiftImm _ _ _ _ _
  | .orrShiftImm _ _ _ _ _ _ _
  | .movShiftImm _ _ _ _ _ _
  | .bicShiftImm _ _ _ _ _ _ _
  | .mvnShiftImm _ _ _ _ _ _
  | .b _ _
  | .bl _ _
  | .blxLabel _ _
  | .msrImm _ _ _ _ _
  | .undefined _ _ _ =>
      none
  | .andShiftReg _ _ rn rd rs _ rm
  | .eorShiftReg _ _ rn rd rs _ rm
  | .subShiftReg _ _ rn rd rs _ rm
  | .rsbShiftReg _ _ rn rd rs _ rm
  | .addShiftReg _ _ rn rd rs _ rm
  | .adcShiftReg _ _ rn rd rs _ rm
  | .sbcShiftReg _ _ rn rd rs _ rm
  | .rscShiftReg _ _ rn rd rs _ rm
  | .orrShiftReg _ _ rn rd rs _ rm
  | .bicShiftReg _ _ rn rd rs _ rm =>
      shiftRegRestriction rn rd rs rm
  | .tstShiftReg _ rn rs _ rm
  | .teqShiftReg _ rn rs _ rm
  | .cmpShiftReg _ rn rs _ rm
  | .cmnShiftReg _ rn rs _ rm =>
      shiftRegRestriction rn 0 rs rm
  | .movShiftReg _ _ rd rs _ rm
  | .mvnShiftReg _ _ rd rs _ rm =>
      shiftRegRestriction 0 rd rs rm
  | .mul _ _ rd rs rm =>
      mulRestriction rd 0 rs rm
  | .mla _ _ rd rn rs rm =>
      mulRestriction rd rn rs rm
  | .umull _ _ rdHi rdLo rs rm
  | .umlal _ _ rdHi rdLo rs rm
  | .smull _ _ rdHi rdLo rs rm
  | .smlal _ _ rdHi rdLo rs rm =>
      mullRestriction rdHi rdLo rs rm
  | .bx _ rm =>
      notR15 .bxR15 rm
  | .blxReg _ rm =>
      notR15 .blxR15 rm
  | .mrs _ _ rd =>
      notR15 .mrsR15 rd
  | .msrReg _ _ _ rm =>
      notR15 .msrR15 rm
  | .ldrImmPre _ _ w rn rd _ =>
      transferRestriction none w rn rd none
  | .ldrImmPost _ _ rn rd _ =>
      transferRestriction none true rn rd none
  | .ldrRegPre _ _ w rn rd _ _ rm =>
      transferRestriction none w rn rd (some rm)
  | .ldrRegPost _ _ rn rd _ _ rm =>
      transferRestriction none true rn rd (some rm)
  | .strImmPre _ _ w rn rd _ =>
      transferRestriction (some .storeR15) w rn rd none
  | .strImmPost _ _ rn rd _ =>
      transferRestriction (some .storeR15) true rn rd none
  | .strRegPre _ _ w rn rd _ _ rm =>
      transferRestriction (some .storeR15) w rn rd (some rm)
  | .strRegPost _ _ rn rd _ _ rm =>
      transferRestriction (some .storeR15) true rn rd (some rm)
  | .ldrbImmPre _ _ w rn rd _
  | .strbImmPre _ _ w rn rd _
  | .ldrhImmPre _ _ w rn rd _ _
  | .strhImmPre _ _ w rn rd _ _
  | .ldrsbImmPre _ _ w rn rd _ _
  | .ldrshImmPre _ _ w rn rd _ _ =>
      transferRestriction (some .transferR15) w rn rd none
  | .ldrbImmPost _ _ rn rd _
  | .strbImmPost _ _ rn rd _
  | .ldrhImmPost _ _ rn rd _ _
  | .strhImmPost _ _ rn rd _ _
  | .ldrsbImmPost _ _ rn rd _ _
  | .ldrshImmPost _ _ rn rd _ _
  | .ldrtImm _ _ rn rd _
  | .strtImm _ _ rn rd _
  | .ldrbtImm _ _ rn rd _
  | .strbtImm _ _ rn rd _ =>
      transferRestriction (some .transferR15) true rn rd none
  | .ldrbRegPre _ _ w rn rd _ _ rm
  | .strbRegPre _ _ w rn rd _ _ rm
  | .ldrhRegPre _ _ w rn rd rm
  | .strhRegPre _ _ w rn rd rm
  | .ldrsbRegPre _ _ w rn rd rm
  | .ldrshRegPre _ _ w rn rd rm =>
      transferRestriction (some .transferR15) w rn rd (some rm)
  | .ldrbRegPost _ _ rn rd _ _ rm
  | .strbRegPost _ _ rn rd _ _ rm
  | .ldrhRegPost _ _ rn rd rm
  | .strhRegPost _ _ rn rd rm
  | .ldrsbRegPost _ _ rn rd rm
  | .ldrshRegPost _ _ rn rd rm
  | .ldrtReg _ _ rn rd _ _ rm
  | .strtReg _ _ rn rd _ _ rm
  | .ldrbtReg _ _ rn rd _ _ rm
  | .strbtReg _ _ rn rd _ _ rm =>
      transferRestriction (some .transferR15) true rn rd (some rm)

/-- No restriction is broken. -/
def Instr.wellFormed (i : Instr) : Bool := i.restriction.isNone

end Sys2Proof
end

