-- ==== Sys2Proof/Decode.lean ====
section
/-!
DEFINITION. Decoding and encoding (spec 30_encoding.md). `decode` follows the decode
procedure of rule R110: it answers the row of spec/opcode_table.json the word
matches, with its fields, or rejects by name. The register restrictions
(WellFormed) are statements about the instruction decoded; its meaning refuses
them before it looks at the condition. `encode` writes the word of an instruction
from the format tables, rules R93 to R107.
-/

namespace Sys2Proof

/-- Why no instruction is read. -/
inductive DecodeError where
  /-- Fewer than four bytes: an instruction is one 32-bit word (rule R90). -/
  | truncated
  /-- The word matches no row of the table (rule R112). -/
  | notInScope
  /-- Condition field 1111 and not BLX label (rule R114). -/
  | cond1111
  deriving DecidableEq, Repr

/-- The sixteen operations of the opcode field, rule R96. -/
inductive DpOp where
  | and | eor | sub | rsb | add | adc | sbc | rsc
  | tst | teq | cmp | cmn | orr | mov | bic | mvn
  deriving DecidableEq, Repr

/-- The operations of the word and byte transfers, the bits B and L (rule R106). -/
inductive LsOp where
  | ldr | str | ldrb | strb
  deriving DecidableEq, Repr

/-- The operations of the halfword and signed transfers (rule R107). -/
inductive HalfOp where
  | ldrh | strh | ldrsb | ldrsh
  deriving DecidableEq, Repr

/-! ## Bits of a word (rule R6) -/

/-- `w[lo + len - 1 : lo]`. -/
def bits (w : Word) (lo len : Nat) : BitVec len := w.extractLsb' lo len

/-- `w[i]`. -/
def bit (w : Word) (i : Nat) : Bool := w.getLsbD i

/-! ## Fields that become names -/

/-- The condition of a code; none for 1111 (rule R91). -/
def Cond.ofCode (code : BitVec 4) : Option Cond :=
  match code.toNat with
  | 0 => some .eq | 1 => some .ne | 2 => some .cs | 3 => some .cc
  | 4 => some .mi | 5 => some .pl | 6 => some .vs | 7 => some .vc
  | 8 => some .hi | 9 => some .ls | 10 => some .ge | 11 => some .lt
  | 12 => some .gt | 13 => some .le | 14 => some .al
  | _ => none

/-- The code of a condition (rule R91). -/
def Cond.code (c : Cond) : BitVec 4 :=
  match c with
  | .eq => 0b0000#4 | .ne => 0b0001#4 | .cs => 0b0010#4 | .cc => 0b0011#4
  | .mi => 0b0100#4 | .pl => 0b0101#4 | .vs => 0b0110#4 | .vc => 0b0111#4
  | .hi => 0b1000#4 | .ls => 0b1001#4 | .ge => 0b1010#4 | .lt => 0b1011#4
  | .gt => 0b1100#4 | .le => 0b1101#4 | .al => 0b1110#4

/-- The shift type of the field Sh (rule R109). -/
def ShiftType.ofCode (code : BitVec 2) : ShiftType :=
  match code.toNat with
  | 0 => .lsl | 1 => .lsr | 2 => .asr | _ => .ror

/-- The field Sh of a shift type (rule R109). -/
def ShiftType.code (sh : ShiftType) : BitVec 2 :=
  match sh with
  | .lsl => 0b00#2 | .lsr => 0b01#2 | .asr => 0b10#2 | .ror => 0b11#2

/-- The status register of the bit R (rule R103). -/
def PsrSel.ofBit (r : Bool) : PsrSel := if r then .spsr else .cpsr

/-- The bit R of a status register (rule R103). -/
def PsrSel.toBit (p : PsrSel) : Bool :=
  match p with
  | .cpsr => false | .spsr => true

/-- The operation of the opcode field (rule R96). -/
def DpOp.ofCode (code : BitVec 4) : DpOp :=
  match code.toNat with
  | 0 => .and | 1 => .eor | 2 => .sub | 3 => .rsb
  | 4 => .add | 5 => .adc | 6 => .sbc | 7 => .rsc
  | 8 => .tst | 9 => .teq | 10 => .cmp | 11 => .cmn
  | 12 => .orr | 13 => .mov | 14 => .bic | _ => .mvn

/-- The operation of the bits B and L (rule R106). -/
def LsOp.ofBits (b l : Bool) : LsOp :=
  match b, l with
  | false, true => .ldr | false, false => .str
  | true, true => .ldrb | true, false => .strb

/-- The operation of the bits L, S and H; none where no row has them (rule R107). -/
def HalfOp.ofBits (l : Bool) (sh : BitVec 2) : Option HalfOp :=
  match l, sh.toNat with
  | false, 1 => some .strh
  | true, 1 => some .ldrh
  | true, 2 => some .ldrsb
  | true, 3 => some .ldrsh
  | _, _ => none

/-! ## Decoding, class by class (rules R92, R110)

An SBZ or SBO field that does not hold what it should makes the word match no
row: `none` (rule R111). -/

/-- Data processing with an immediate (rule R93), with the SBZ fields of rule R97. -/
def decodeDpImm (c : Cond) (op : DpOp) (sf : Bool) (rn rd : Reg) (rotate : BitVec 4)
    (imm8 : BitVec 8) : Option Instr :=
  match op with
  | .and => some (.andImm c sf rn rd rotate imm8)
  | .eor => some (.eorImm c sf rn rd rotate imm8)
  | .sub => some (.subImm c sf rn rd rotate imm8)
  | .rsb => some (.rsbImm c sf rn rd rotate imm8)
  | .add => some (.addImm c sf rn rd rotate imm8)
  | .adc => some (.adcImm c sf rn rd rotate imm8)
  | .sbc => some (.sbcImm c sf rn rd rotate imm8)
  | .rsc => some (.rscImm c sf rn rd rotate imm8)
  | .tst => if sf = true ∧ rd = 0 then some (.tstImm c rn rotate imm8) else none
  | .teq => if sf = true ∧ rd = 0 then some (.teqImm c rn rotate imm8) else none
  | .cmp => if sf = true ∧ rd = 0 then some (.cmpImm c rn rotate imm8) else none
  | .cmn => if sf = true ∧ rd = 0 then some (.cmnImm c rn rotate imm8) else none
  | .orr => some (.orrImm c sf rn rd rotate imm8)
  | .mov => if rn = 0 then some (.movImm c sf rd rotate imm8) else none
  | .bic => some (.bicImm c sf rn rd rotate imm8)
  | .mvn => if rn = 0 then some (.mvnImm c sf rd rotate imm8) else none

/-- Data processing with an instruction-specified shift (rule R94). -/
def decodeDpShiftImm (c : Cond) (op : DpOp) (sf : Bool) (rn rd : Reg) (shiftImm : BitVec 5)
    (sh : ShiftType) (rm : Reg) : Option Instr :=
  match op with
  | .and => some (.andShiftImm c sf rn rd shiftImm sh rm)
  | .eor => some (.eorShiftImm c sf rn rd shiftImm sh rm)
  | .sub => some (.subShiftImm c sf rn rd shiftImm sh rm)
  | .rsb => some (.rsbShiftImm c sf rn rd shiftImm sh rm)
  | .add => some (.addShiftImm c sf rn rd shiftImm sh rm)
  | .adc => some (.adcShiftImm c sf rn rd shiftImm sh rm)
  | .sbc => some (.sbcShiftImm c sf rn rd shiftImm sh rm)
  | .rsc => some (.rscShiftImm c sf rn rd shiftImm sh rm)
  | .tst => if sf = true ∧ rd = 0 then some (.tstShiftImm c rn shiftImm sh rm) else none
  | .teq => if sf = true ∧ rd = 0 then some (.teqShiftImm c rn shiftImm sh rm) else none
  | .cmp => if sf = true ∧ rd = 0 then some (.cmpShiftImm c rn shiftImm sh rm) else none
  | .cmn => if sf = true ∧ rd = 0 then some (.cmnShiftImm c rn shiftImm sh rm) else none
  | .orr => some (.orrShiftImm c sf rn rd shiftImm sh rm)
  | .mov => if rn = 0 then some (.movShiftImm c sf rd shiftImm sh rm) else none
  | .bic => some (.bicShiftImm c sf rn rd shiftImm sh rm)
  | .mvn => if rn = 0 then some (.mvnShiftImm c sf rd shiftImm sh rm) else none

/-- Data processing with a register-specified shift (rule R95). -/
def decodeDpShiftReg (c : Cond) (op : DpOp) (sf : Bool) (rn rd : Reg) (rs : Reg)
    (sh : ShiftType) (rm : Reg) : Option Instr :=
  match op with
  | .and => some (.andShiftReg c sf rn rd rs sh rm)
  | .eor => some (.eorShiftReg c sf rn rd rs sh rm)
  | .sub => some (.subShiftReg c sf rn rd rs sh rm)
  | .rsb => some (.rsbShiftReg c sf rn rd rs sh rm)
  | .add => some (.addShiftReg c sf rn rd rs sh rm)
  | .adc => some (.adcShiftReg c sf rn rd rs sh rm)
  | .sbc => some (.sbcShiftReg c sf rn rd rs sh rm)
  | .rsc => some (.rscShiftReg c sf rn rd rs sh rm)
  | .tst => if sf = true ∧ rd = 0 then some (.tstShiftReg c rn rs sh rm) else none
  | .teq => if sf = true ∧ rd = 0 then some (.teqShiftReg c rn rs sh rm) else none
  | .cmp => if sf = true ∧ rd = 0 then some (.cmpShiftReg c rn rs sh rm) else none
  | .cmn => if sf = true ∧ rd = 0 then some (.cmnShiftReg c rn rs sh rm) else none
  | .orr => some (.orrShiftReg c sf rn rd rs sh rm)
  | .mov => if rn = 0 then some (.movShiftReg c sf rd rs sh rm) else none
  | .bic => some (.bicShiftReg c sf rn rd rs sh rm)
  | .mvn => if rn = 0 then some (.mvnShiftReg c sf rd rs sh rm) else none

/-- The multiplies: `code` is w[23:21], `hi` and `lo` the fields w[19:16] and
w[15:12] (rules R98, R99, R115). -/
def decodeMultiply (c : Cond) (code : BitVec 3) (sf : Bool) (hi lo rs rm : Reg) : Option Instr :=
  match code.toNat with
  | 0 => if lo = 0 then some (.mul c sf hi rs rm) else none
  | 1 => some (.mla c sf hi lo rs rm)
  | 4 => some (.umull c sf hi lo rs rm)
  | 5 => some (.umlal c sf hi lo rs rm)
  | 6 => some (.smull c sf hi lo rs rm)
  | 7 => some (.smlal c sf hi lo rs rm)
  | _ => none

/-- Word and byte transfers with an immediate offset (rule R106, I = 0). -/
def decodeLsImm (c : Cond) (p u : Bool) (op : LsOp) (w : Bool) (rn rd : Reg)
    (imm12 : BitVec 12) : Instr :=
  match op, p, w with
  | .ldr, true, _ => .ldrImmPre c u w rn rd imm12
  | .ldr, false, false => .ldrImmPost c u rn rd imm12
  | .ldr, false, true => .ldrtImm c u rn rd imm12
  | .str, true, _ => .strImmPre c u w rn rd imm12
  | .str, false, false => .strImmPost c u rn rd imm12
  | .str, false, true => .strtImm c u rn rd imm12
  | .ldrb, true, _ => .ldrbImmPre c u w rn rd imm12
  | .ldrb, false, false => .ldrbImmPost c u rn rd imm12
  | .ldrb, false, true => .ldrbtImm c u rn rd imm12
  | .strb, true, _ => .strbImmPre c u w rn rd imm12
  | .strb, false, false => .strbImmPost c u rn rd imm12
  | .strb, false, true => .strbtImm c u rn rd imm12

/-- Word and byte transfers with a shifted register offset (rule R106, I = 1). -/
def decodeLsReg (c : Cond) (p u : Bool) (op : LsOp) (w : Bool) (rn rd : Reg)
    (shiftImm : BitVec 5) (sh : ShiftType) (rm : Reg) : Instr :=
  match op, p, w with
  | .ldr, true, _ => .ldrRegPre c u w rn rd shiftImm sh rm
  | .ldr, false, false => .ldrRegPost c u rn rd shiftImm sh rm
  | .ldr, false, true => .ldrtReg c u rn rd shiftImm sh rm
  | .str, true, _ => .strRegPre c u w rn rd shiftImm sh rm
  | .str, false, false => .strRegPost c u rn rd shiftImm sh rm
  | .str, false, true => .strtReg c u rn rd shiftImm sh rm
  | .ldrb, true, _ => .ldrbRegPre c u w rn rd shiftImm sh rm
  | .ldrb, false, false => .ldrbRegPost c u rn rd shiftImm sh rm
  | .ldrb, false, true => .ldrbtReg c u rn rd shiftImm sh rm
  | .strb, true, _ => .strbRegPre c u w rn rd shiftImm sh rm
  | .strb, false, false => .strbRegPost c u rn rd shiftImm sh rm
  | .strb, false, true => .strbtReg c u rn rd shiftImm sh rm

/-- Halfword and signed transfers: `imm` is the bit 22, `immH` and `immL` the fields
w[11:8] and w[3:0]; P = 0 with W = 1 has no row (rule R107). -/
def decodeHalf (c : Cond) (p u imm w : Bool) (op : HalfOp) (rn rd : Reg)
    (immH immL : BitVec 4) : Option Instr :=
  if p = false ∧ w = true then none
  else if imm = false ∧ immH ≠ 0 then none
  else match op, p, imm with
  | .ldrh, true, true => some (.ldrhImmPre c u w rn rd immH immL)
  | .ldrh, false, true => some (.ldrhImmPost c u rn rd immH immL)
  | .ldrh, true, false => some (.ldrhRegPre c u w rn rd immL)
  | .ldrh, false, false => some (.ldrhRegPost c u rn rd immL)
  | .strh, true, true => some (.strhImmPre c u w rn rd immH immL)
  | .strh, false, true => some (.strhImmPost c u rn rd immH immL)
  | .strh, true, false => some (.strhRegPre c u w rn rd immL)
  | .strh, false, false => some (.strhRegPost c u rn rd immL)
  | .ldrsb, true, true => some (.ldrsbImmPre c u w rn rd immH immL)
  | .ldrsb, false, true => some (.ldrsbImmPost c u rn rd immH immL)
  | .ldrsb, true, false => some (.ldrsbRegPre c u w rn rd immL)
  | .ldrsb, false, false => some (.ldrsbRegPost c u rn rd immL)
  | .ldrsh, true, true => some (.ldrshImmPre c u w rn rd immH immL)
  | .ldrsh, false, true => some (.ldrshImmPost c u rn rd immH immL)
  | .ldrsh, true, false => some (.ldrshRegPre c u w rn rd immL)
  | .ldrsh, false, false => some (.ldrshRegPost c u rn rd immL)

/-- MRS and MSR register, the words with w[24:23] = 10, w[20] = 0, w[4] = 0
(rules R103, R105). -/
def decodePsrReg (c : Cond) (w : Word) : Option Instr :=
  if bit w 21 = false then
    if bits w 16 4 = 0b1111#4 ∧ bits w 0 12 = 0 then
      some (.mrs c (.ofBit (bit w 22)) (bits w 12 4))
    else none
  else if bits w 12 4 = 0b1111#4 ∧ bits w 4 8 = 0 then
    some (.msrReg c (.ofBit (bit w 22)) (bits w 16 4) (bits w 0 4))
  else none

/-- BX and BLX register, the words with w[24:23] = 10, w[20] = 0, w[7] = 0,
w[4] = 1 (rule R101). -/
def decodeBx (c : Cond) (w : Word) : Option Instr :=
  if bits w 20 8 = 0b00010010#8 ∧ bits w 8 12 = 0b111111111111#12 then
    if bits w 4 4 = 0b0001#4 then some (.bx c (bits w 0 4))
    else if bits w 4 4 = 0b0011#4 then some (.blxReg c (bits w 0 4))
    else none
  else none

/-- The words of the miscellaneous space: w[24:23] = 10 and w[20] = 0 (rule R110). -/
def isMisc (w : Word) : Bool := bits w 23 2 = 0b10#2 ∧ bit w 20 = false

/-- Class 000 (rule R110). -/
def decodeClass000 (c : Cond) (w : Word) : Option Instr :=
  if bit w 4 = false then
    if isMisc w = true then decodePsrReg c w
    else decodeDpShiftImm c (.ofCode (bits w 21 4)) (bit w 20) (bits w 16 4) (bits w 12 4)
      (bits w 7 5) (.ofCode (bits w 5 2)) (bits w 0 4)
  else if bit w 7 = false then
    if isMisc w = true then decodeBx c w
    else decodeDpShiftReg c (.ofCode (bits w 21 4)) (bit w 20) (bits w 16 4) (bits w 12 4)
      (bits w 8 4) (.ofCode (bits w 5 2)) (bits w 0 4)
  else if bits w 5 2 = 0 then
    if bit w 24 = false then
      decodeMultiply c (bits w 21 3) (bit w 20) (bits w 16 4) (bits w 12 4) (bits w 8 4)
        (bits w 0 4)
    else none
  else match HalfOp.ofBits (bit w 20) (bits w 5 2) with
    | some op => decodeHalf c (bit w 24) (bit w 23) (bit w 22) (bit w 21) op (bits w 16 4)
        (bits w 12 4) (bits w 8 4) (bits w 0 4)
    | none => none

/-- Class 001 (rule R110). -/
def decodeClass001 (c : Cond) (w : Word) : Option Instr :=
  if isMisc w = true then
    if bit w 21 = true ∧ bits w 12 4 = 0b1111#4 then
      some (.msrImm c (.ofBit (bit w 22)) (bits w 16 4) (bits w 8 4) (bits w 0 8))
    else none
  else decodeDpImm c (.ofCode (bits w 21 4)) (bit w 20) (bits w 16 4) (bits w 12 4)
    (bits w 8 4) (bits w 0 8)

/-- The words whose condition field is a condition, by class (rules R92, R110). -/
def decodeClass (c : Cond) (w : Word) : Option Instr :=
  match (bits w 25 3).toNat with
  | 0 => decodeClass000 c w
  | 1 => decodeClass001 c w
  | 2 => some (decodeLsImm c (bit w 24) (bit w 23) (.ofBits (bit w 22) (bit w 20)) (bit w 21)
      (bits w 16 4) (bits w 12 4) (bits w 0 12))
  | 3 => if bit w 4 = true then some (.undefined c (bits w 5 20) (bits w 0 4))
      else some (decodeLsReg c (bit w 24) (bit w 23) (.ofBits (bit w 22) (bit w 20)) (bit w 21)
        (bits w 16 4) (bits w 12 4) (bits w 7 5) (.ofCode (bits w 5 2)) (bits w 0 4))
  | 5 => if bit w 24 = true then some (.bl c (bits w 0 24)) else some (.b c (bits w 0 24))
  | _ => none

/-- The instruction of a word (rule R110). -/
def decode (w : Word) : Except DecodeError Instr :=
  match Cond.ofCode (bits w 28 4) with
  | none =>
    if bits w 25 3 = 0b101#3 then .ok (.blxLabel (bit w 24) (bits w 0 24))
    else .error .cond1111
  | some c =>
    match decodeClass c w with
    | some i => .ok i
    | none => .error .notInScope

/-- The word of four bytes, the first at the lowest address (rule R64). -/
def wordOfBytes (b0 b1 b2 b3 : Byte) : Word := b3 ++ b2 ++ b1 ++ b0

/-- The instruction at the front of a list of bytes, and the bytes after it
(rules R64, R90). -/
def decodeBytes (bs : List Byte) : Except DecodeError (Instr × List Byte) :=
  match bs with
  | b0 :: b1 :: b2 :: b3 :: rest =>
    match decode (wordOfBytes b0 b1 b2 b3) with
    | .ok i => .ok (i, rest)
    | .error e => .error e
  | _ => .error .truncated

/-- The four bytes of a word, in the order of their addresses (rule R64). -/
def bytesOfWord (w : Word) : List Byte := [bits w 0 8, bits w 8 8, bits w 16 8, bits w 24 8]

/-- The instruction the decoder reads from the bits `w`, an instruction of `nbits`
bits laid out in memory byte by byte; the bits above `nbits` are 0. -/
def decodeTableWord (nbits w : Nat) : Option Instr :=
  match decodeBytes (bytesOfWord (BitVec.ofNat 32 (w % 2 ^ nbits))) with
  | .ok (i, _) => some i
  | .error _ => none

/-! ## Encoding -/

/-- Rule R93. -/
def encDpImm (c : Cond) (op : BitVec 4) (sf : Bool) (rn rd : Reg) (rotate : BitVec 4)
    (imm8 : BitVec 8) : Word :=
  c.code ++ 0b001#3 ++ op ++ BitVec.ofBool sf ++ rn ++ rd ++ rotate ++ imm8

/-- Rule R94. -/
def encDpShiftImm (c : Cond) (op : BitVec 4) (sf : Bool) (rn rd : Reg) (shiftImm : BitVec 5)
    (sh : ShiftType) (rm : Reg) : Word :=
  c.code ++ 0b000#3 ++ op ++ BitVec.ofBool sf ++ rn ++ rd ++ shiftImm ++ sh.code ++ 0#1 ++ rm

/-- Rule R95. -/
def encDpShiftReg (c : Cond) (op : BitVec 4) (sf : Bool) (rn rd rs : Reg) (sh : ShiftType)
    (rm : Reg) : Word :=
  c.code ++ 0b000#3 ++ op ++ BitVec.ofBool sf ++ rn ++ rd ++ rs ++ 0#1 ++ sh.code ++ 1#1 ++ rm

/-- Rules R98, R99: `code` is w[23:21]. -/
def encMul (c : Cond) (code : BitVec 3) (sf : Bool) (hi lo rs rm : Reg) : Word :=
  c.code ++ 0b0000#4 ++ code ++ BitVec.ofBool sf ++ hi ++ lo ++ rs ++ 0b1001#4 ++ rm

/-- Rule R100. -/
def encBranch (c : Cond) (l : Bool) (imm24 : BitVec 24) : Word :=
  c.code ++ 0b101#3 ++ BitVec.ofBool l ++ imm24

/-- Rule R101: `op` is w[7:4]. -/
def encBx (c : Cond) (op : BitVec 4) (rm : Reg) : Word :=
  c.code ++ 0b00010010#8 ++ 0b111111111111#12 ++ op ++ rm

/-- Rule R102. -/
def encBlxLabel (h : Bool) (imm24 : BitVec 24) : Word :=
  0b1111#4 ++ 0b101#3 ++ BitVec.ofBool h ++ imm24

/-- Rule R103. -/
def encMrs (c : Cond) (psr : PsrSel) (rd : Reg) : Word :=
  c.code ++ 0b00010#5 ++ BitVec.ofBool psr.toBit ++ 0b00#2 ++ 0b1111#4 ++ rd ++ 0#12

/-- Rule R104. -/
def encMsrImm (c : Cond) (psr : PsrSel) (fieldMask rotate : BitVec 4) (imm8 : BitVec 8) : Word :=
  c.code ++ 0b00110#5 ++ BitVec.ofBool psr.toBit ++ 0b10#2 ++ fieldMask ++ 0b1111#4 ++ rotate ++
    imm8

/-- Rule R105. -/
def encMsrReg (c : Cond) (psr : PsrSel) (fieldMask : BitVec 4) (rm : Reg) : Word :=
  c.code ++ 0b00010#5 ++ BitVec.ofBool psr.toBit ++ 0b10#2 ++ fieldMask ++ 0b1111#4 ++ 0#8 ++ rm

/-- Rule R106, I = 0. -/
def encLsImm (c : Cond) (p u b w l : Bool) (rn rd : Reg) (imm12 : BitVec 12) : Word :=
  c.code ++ 0b010#3 ++ BitVec.ofBool p ++ BitVec.ofBool u ++ BitVec.ofBool b ++
    BitVec.ofBool w ++ BitVec.ofBool l ++ rn ++ rd ++ imm12

/-- Rule R106, I = 1. -/
def encLsReg (c : Cond) (p u b w l : Bool) (rn rd : Reg) (shiftImm : BitVec 5) (sh : ShiftType)
    (rm : Reg) : Word :=
  c.code ++ 0b011#3 ++ BitVec.ofBool p ++ BitVec.ofBool u ++ BitVec.ofBool b ++
    BitVec.ofBool w ++ BitVec.ofBool l ++ rn ++ rd ++ shiftImm ++ sh.code ++ 0#1 ++ rm

/-- Rule R107: `i` is the bit 22, `sh` the bits S and H. -/
def encHalf (c : Cond) (p u i w l : Bool) (rn rd : Reg) (immH : BitVec 4) (sh : BitVec 2)
    (immL : BitVec 4) : Word :=
  c.code ++ 0b000#3 ++ BitVec.ofBool p ++ BitVec.ofBool u ++ BitVec.ofBool i ++
    BitVec.ofBool w ++ BitVec.ofBool l ++ rn ++ rd ++ immH ++ 1#1 ++ sh ++ 1#1 ++ immL

/-- Rule R113. -/
def encUndefined (c : Cond) (hi : BitVec 20) (lo : BitVec 4) : Word :=
  c.code ++ 0b011#3 ++ hi ++ 1#1 ++ lo

/-- The word of an instruction (rules R93 to R107, R113). -/
def encode (i : Instr) : Word :=
  match i with
  | .andImm c sf rn rd rotate imm8 => encDpImm c 0b0000#4 sf rn rd rotate imm8
  | .andShiftImm c sf rn rd shiftImm sh rm => encDpShiftImm c 0b0000#4 sf rn rd shiftImm sh rm
  | .andShiftReg c sf rn rd rs sh rm => encDpShiftReg c 0b0000#4 sf rn rd rs sh rm
  | .eorImm c sf rn rd rotate imm8 => encDpImm c 0b0001#4 sf rn rd rotate imm8
  | .eorShiftImm c sf rn rd shiftImm sh rm => encDpShiftImm c 0b0001#4 sf rn rd shiftImm sh rm
  | .eorShiftReg c sf rn rd rs sh rm => encDpShiftReg c 0b0001#4 sf rn rd rs sh rm
  | .subImm c sf rn rd rotate imm8 => encDpImm c 0b0010#4 sf rn rd rotate imm8
  | .subShiftImm c sf rn rd shiftImm sh rm => encDpShiftImm c 0b0010#4 sf rn rd shiftImm sh rm
  | .subShiftReg c sf rn rd rs sh rm => encDpShiftReg c 0b0010#4 sf rn rd rs sh rm
  | .rsbImm c sf rn rd rotate imm8 => encDpImm c 0b0011#4 sf rn rd rotate imm8
  | .rsbShiftImm c sf rn rd shiftImm sh rm => encDpShiftImm c 0b0011#4 sf rn rd shiftImm sh rm
  | .rsbShiftReg c sf rn rd rs sh rm => encDpShiftReg c 0b0011#4 sf rn rd rs sh rm
  | .addImm c sf rn rd rotate imm8 => encDpImm c 0b0100#4 sf rn rd rotate imm8
  | .addShiftImm c sf rn rd shiftImm sh rm => encDpShiftImm c 0b0100#4 sf rn rd shiftImm sh rm
  | .addShiftReg c sf rn rd rs sh rm => encDpShiftReg c 0b0100#4 sf rn rd rs sh rm
  | .adcImm c sf rn rd rotate imm8 => encDpImm c 0b0101#4 sf rn rd rotate imm8
  | .adcShiftImm c sf rn rd shiftImm sh rm => encDpShiftImm c 0b0101#4 sf rn rd shiftImm sh rm
  | .adcShiftReg c sf rn rd rs sh rm => encDpShiftReg c 0b0101#4 sf rn rd rs sh rm
  | .sbcImm c sf rn rd rotate imm8 => encDpImm c 0b0110#4 sf rn rd rotate imm8
  | .sbcShiftImm c sf rn rd shiftImm sh rm => encDpShiftImm c 0b0110#4 sf rn rd shiftImm sh rm
  | .sbcShiftReg c sf rn rd rs sh rm => encDpShiftReg c 0b0110#4 sf rn rd rs sh rm
  | .rscImm c sf rn rd rotate imm8 => encDpImm c 0b0111#4 sf rn rd rotate imm8
  | .rscShiftImm c sf rn rd shiftImm sh rm => encDpShiftImm c 0b0111#4 sf rn rd shiftImm sh rm
  | .rscShiftReg c sf rn rd rs sh rm => encDpShiftReg c 0b0111#4 sf rn rd rs sh rm
  | .tstImm c rn rotate imm8 => encDpImm c 0b1000#4 true rn 0 rotate imm8
  | .tstShiftImm c rn shiftImm sh rm => encDpShiftImm c 0b1000#4 true rn 0 shiftImm sh rm
  | .tstShiftReg c rn rs sh rm => encDpShiftReg c 0b1000#4 true rn 0 rs sh rm
  | .teqImm c rn rotate imm8 => encDpImm c 0b1001#4 true rn 0 rotate imm8
  | .teqShiftImm c rn shiftImm sh rm => encDpShiftImm c 0b1001#4 true rn 0 shiftImm sh rm
  | .teqShiftReg c rn rs sh rm => encDpShiftReg c 0b1001#4 true rn 0 rs sh rm
  | .cmpImm c rn rotate imm8 => encDpImm c 0b1010#4 true rn 0 rotate imm8
  | .cmpShiftImm c rn shiftImm sh rm => encDpShiftImm c 0b1010#4 true rn 0 shiftImm sh rm
  | .cmpShiftReg c rn rs sh rm => encDpShiftReg c 0b1010#4 true rn 0 rs sh rm
  | .cmnImm c rn rotate imm8 => encDpImm c 0b1011#4 true rn 0 rotate imm8
  | .cmnShiftImm c rn shiftImm sh rm => encDpShiftImm c 0b1011#4 true rn 0 shiftImm sh rm
  | .cmnShiftReg c rn rs sh rm => encDpShiftReg c 0b1011#4 true rn 0 rs sh rm
  | .orrImm c sf rn rd rotate imm8 => encDpImm c 0b1100#4 sf rn rd rotate imm8
  | .orrShiftImm c sf rn rd shiftImm sh rm => encDpShiftImm c 0b1100#4 sf rn rd shiftImm sh rm
  | .orrShiftReg c sf rn rd rs sh rm => encDpShiftReg c 0b1100#4 sf rn rd rs sh rm
  | .movImm c sf rd rotate imm8 => encDpImm c 0b1101#4 sf 0 rd rotate imm8
  | .movShiftImm c sf rd shiftImm sh rm => encDpShiftImm c 0b1101#4 sf 0 rd shiftImm sh rm
  | .movShiftReg c sf rd rs sh rm => encDpShiftReg c 0b1101#4 sf 0 rd rs sh rm
  | .bicImm c sf rn rd rotate imm8 => encDpImm c 0b1110#4 sf rn rd rotate imm8
  | .bicShiftImm c sf rn rd shiftImm sh rm => encDpShiftImm c 0b1110#4 sf rn rd shiftImm sh rm
  | .bicShiftReg c sf rn rd rs sh rm => encDpShiftReg c 0b1110#4 sf rn rd rs sh rm
  | .mvnImm c sf rd rotate imm8 => encDpImm c 0b1111#4 sf 0 rd rotate imm8
  | .mvnShiftImm c sf rd shiftImm sh rm => encDpShiftImm c 0b1111#4 sf 0 rd shiftImm sh rm
  | .mvnShiftReg c sf rd rs sh rm => encDpShiftReg c 0b1111#4 sf 0 rd rs sh rm
  | .mul c sf rd rs rm => encMul c 0b000#3 sf rd 0 rs rm
  | .mla c sf rd rn rs rm => encMul c 0b001#3 sf rd rn rs rm
  | .umull c sf rdHi rdLo rs rm => encMul c 0b100#3 sf rdHi rdLo rs rm
  | .umlal c sf rdHi rdLo rs rm => encMul c 0b101#3 sf rdHi rdLo rs rm
  | .smull c sf rdHi rdLo rs rm => encMul c 0b110#3 sf rdHi rdLo rs rm
  | .smlal c sf rdHi rdLo rs rm => encMul c 0b111#3 sf rdHi rdLo rs rm
  | .b c imm24 => encBranch c false imm24
  | .bl c imm24 => encBranch c true imm24
  | .bx c rm => encBx c 0b0001#4 rm
  | .blxReg c rm => encBx c 0b0011#4 rm
  | .blxLabel h imm24 => encBlxLabel h imm24
  | .mrs c psr rd => encMrs c psr rd
  | .msrImm c psr fieldMask rotate imm8 => encMsrImm c psr fieldMask rotate imm8
  | .msrReg c psr fieldMask rm => encMsrReg c psr fieldMask rm
  | .ldrImmPre c u w rn rd imm12 => encLsImm c true u false w true rn rd imm12
  | .ldrImmPost c u rn rd imm12 => encLsImm c false u false false true rn rd imm12
  | .ldrRegPre c u w rn rd shiftImm sh rm => encLsReg c true u false w true rn rd shiftImm sh rm
  | .ldrRegPost c u rn rd shiftImm sh rm => encLsReg c false u false false true rn rd shiftImm sh rm
  | .strImmPre c u w rn rd imm12 => encLsImm c true u false w false rn rd imm12
  | .strImmPost c u rn rd imm12 => encLsImm c false u false false false rn rd imm12
  | .strRegPre c u w rn rd shiftImm sh rm => encLsReg c true u false w false rn rd shiftImm sh rm
  | .strRegPost c u rn rd shiftImm sh rm => encLsReg c false u false false false rn rd shiftImm sh rm
  | .ldrbImmPre c u w rn rd imm12 => encLsImm c true u true w true rn rd imm12
  | .ldrbImmPost c u rn rd imm12 => encLsImm c false u true false true rn rd imm12
  | .ldrbRegPre c u w rn rd shiftImm sh rm => encLsReg c true u true w true rn rd shiftImm sh rm
  | .ldrbRegPost c u rn rd shiftImm sh rm => encLsReg c false u true false true rn rd shiftImm sh rm
  | .strbImmPre c u w rn rd imm12 => encLsImm c true u true w false rn rd imm12
  | .strbImmPost c u rn rd imm12 => encLsImm c false u true false false rn rd imm12
  | .strbRegPre c u w rn rd shiftImm sh rm => encLsReg c true u true w false rn rd shiftImm sh rm
  | .strbRegPost c u rn rd shiftImm sh rm => encLsReg c false u true false false rn rd shiftImm sh rm
  | .ldrtImm c u rn rd imm12 => encLsImm c false u false true true rn rd imm12
  | .ldrtReg c u rn rd shiftImm sh rm => encLsReg c false u false true true rn rd shiftImm sh rm
  | .strtImm c u rn rd imm12 => encLsImm c false u false true false rn rd imm12
  | .strtReg c u rn rd shiftImm sh rm => encLsReg c false u false true false rn rd shiftImm sh rm
  | .ldrbtImm c u rn rd imm12 => encLsImm c false u true true true rn rd imm12
  | .ldrbtReg c u rn rd shiftImm sh rm => encLsReg c false u true true true rn rd shiftImm sh rm
  | .strbtImm c u rn rd imm12 => encLsImm c false u true true false rn rd imm12
  | .strbtReg c u rn rd shiftImm sh rm => encLsReg c false u true true false rn rd shiftImm sh rm
  | .ldrhImmPre c u w rn rd immH immL => encHalf c true u true w true rn rd immH 0b01#2 immL
  | .ldrhImmPost c u rn rd immH immL => encHalf c false u true false true rn rd immH 0b01#2 immL
  | .ldrhRegPre c u w rn rd rm => encHalf c true u false w true rn rd 0 0b01#2 rm
  | .ldrhRegPost c u rn rd rm => encHalf c false u false false true rn rd 0 0b01#2 rm
  | .strhImmPre c u w rn rd immH immL => encHalf c true u true w false rn rd immH 0b01#2 immL
  | .strhImmPost c u rn rd immH immL => encHalf c false u true false false rn rd immH 0b01#2 immL
  | .strhRegPre c u w rn rd rm => encHalf c true u false w false rn rd 0 0b01#2 rm
  | .strhRegPost c u rn rd rm => encHalf c false u false false false rn rd 0 0b01#2 rm
  | .ldrsbImmPre c u w rn rd immH immL => encHalf c true u true w true rn rd immH 0b10#2 immL
  | .ldrsbImmPost c u rn rd immH immL => encHalf c false u true false true rn rd immH 0b10#2 immL
  | .ldrsbRegPre c u w rn rd rm => encHalf c true u false w true rn rd 0 0b10#2 rm
  | .ldrsbRegPost c u rn rd rm => encHalf c false u false false true rn rd 0 0b10#2 rm
  | .ldrshImmPre c u w rn rd immH immL => encHalf c true u true w true rn rd immH 0b11#2 immL
  | .ldrshImmPost c u rn rd immH immL => encHalf c false u true false true rn rd immH 0b11#2 immL
  | .ldrshRegPre c u w rn rd rm => encHalf c true u false w true rn rd 0 0b11#2 rm
  | .ldrshRegPost c u rn rd rm => encHalf c false u false false true rn rd 0 0b11#2 rm
  | .undefined c hi lo => encUndefined c hi lo

/-- The bytes of an instruction, in the order of their addresses (rule R64). -/
def encodeBytes (i : Instr) : List Byte := bytesOfWord (encode i)

end Sys2Proof
end

