-- ==== Sys2Proof/Config.lean ====
section
/-!
DEFINITION. What an implementation fixes and the free values (spec 00_scope.md
rules R5, R14). A free value (the spec's DRAW) is a constant with no body, read at
the index of the instruction boundary, so nothing can be proved of it.
-/

namespace Sys2Proof

/-- VECTOR_BASE, the address of the exception vectors (rule R5, rule R331). -/
def Config.vectorBase : Word := 0x00000000#32

/-- The C flag after a multiply with S, at boundary `t`: any value (rule R258). -/
opaque Config.mulCarry : Nat → Bool

/-- The V flag after a long multiply with S, at boundary `t`: any value (rule R258). -/
opaque Config.mulOverflow : Nat → Bool

/-- Whether a transfer with write-back that takes a Data Abort at boundary `t`
leaves its base register updated: either (rule R307). -/
opaque Config.abortUpdatesBase : Nat → Bool

end Sys2Proof
end

