-- ==== Sys2Proof/Machine/State.lean ====
section
/-!
DEFINITION. The machine's state as plain data (spec 10_state.md), the platform's
parameters beside it (00_scope.md rule R5), the reasons a step can stop, and the
state after reset (10_state.md rule R43, 70_reset_and_hazards.md rule R380).
-/

namespace Sys2Proof.Machine

/-! ## Modes and status registers -/

/-- The seven processor modes (rule R34). -/
inductive Mode where
  | usr | fiq | irq | svc | abt | und | sys
  deriving DecidableEq, Repr

/-- The exception modes, those that have an SPSR (rules R19, R36). -/
inductive ExcMode where
  | fiq | irq | svc | abt | und
  deriving DecidableEq, Repr

/-- The CPSR: 32 bits by their names (rule R30). The reserved bits 27:8 are zeros
(rule R35) and no illegal mode is ever written (rule R34), so neither has a place
here; `Cpsr.toWord` in Machine/Psr.lean is the 32-bit register. -/
structure Cpsr where
  /-- Bit 31, negative. -/
  n : Bool
  /-- Bit 30, zero. -/
  z : Bool
  /-- Bit 29, carry. -/
  c : Bool
  /-- Bit 28, overflow. -/
  v : Bool
  /-- Bit 7, IRQ disable. -/
  i : Bool
  /-- Bit 6, FIQ disable. -/
  f : Bool
  /-- Bit 5, Thumb state. -/
  t : Bool
  /-- Bits 4:0, the mode. -/
  mode : Mode
  deriving DecidableEq, Repr

/-- An SPSR: the layout of the CPSR, but its mode field may hold any five bits
(rule R36: legality is checked only when it is copied to the CPSR). -/
structure Spsr where
  /-- Bit 31. -/
  n : Bool
  /-- Bit 30. -/
  z : Bool
  /-- Bit 29. -/
  c : Bool
  /-- Bit 28. -/
  v : Bool
  /-- Bit 7. -/
  i : Bool
  /-- Bit 6. -/
  f : Bool
  /-- Bit 5. -/
  t : Bool
  /-- Bits 4:0, any value. -/
  m : BitVec 5
  deriving DecidableEq, Repr

/-- The five SPSRs (rule R36). -/
structure SpsrBank where
  /-- SPSR_fiq. -/
  fiq : Spsr
  /-- SPSR_irq. -/
  irq : Spsr
  /-- SPSR_svc. -/
  svc : Spsr
  /-- SPSR_abt. -/
  abt : Spsr
  /-- SPSR_und. -/
  und : Spsr
  deriving DecidableEq, Repr

/-! ## General registers -/

/-- The 30 general registers but R15, each under its name in the table of rule R23;
a name without suffix is the copy of usr and sys. -/
inductive PhysReg where
  | r0 | r1 | r2 | r3 | r4 | r5 | r6 | r7
  | r8 | r9 | r10 | r11 | r12 | r13 | r14
  | r8_fiq | r9_fiq | r10_fiq | r11_fiq | r12_fiq | r13_fiq | r14_fiq
  | r13_irq | r14_irq | r13_svc | r14_svc | r13_abt | r14_abt | r13_und | r14_und
  deriving DecidableEq, Repr

/-! ## The platform's parameters -/

/-- The kinds of access of the memory map and of the abort oracle (rules R68, R69). -/
inductive AccessKind where
  | fetch | read | write
  deriving DecidableEq, Repr

/-- The byte addresses `base .. base + size - 1` and the kinds of access they stand
for: admitted, in MEM_MAP (rule R68); aborted, in ABORT (rule R69). -/
structure Region where
  /-- The first address. -/
  base : Nat
  /-- How many addresses. -/
  size : Nat
  /-- Instruction fetches. -/
  fetch : Bool
  /-- Data reads. -/
  read : Bool
  /-- Data writes. -/
  write : Bool
  deriving DecidableEq, Repr

/-- MISALIGNED_POLICY (rule R66). -/
inductive MisalignedPolicy where
  | refuse | rotateOrIgnore | abort
  deriving DecidableEq, Repr

/-- The parameters of rule R5 that vary: what rule R44 calls not state. No
instruction writes them. -/
structure Platform where
  /-- MEM_MAP (rule R68). -/
  memMap : List Region
  /-- ABORT, the accesses the memory system aborts (rule R69). -/
  aborts : List Region
  /-- IRQ_LINE: the boundaries at which the IRQ input is asserted (rule R344). -/
  irqAt : List Nat
  /-- FIQ_LINE: the boundaries at which the FIQ input is asserted (rule R344). -/
  fiqAt : List Nat
  /-- HALT_ADDR, if the run has one (rule R389). -/
  haltAddr : Option Word
  /-- MISALIGNED_POLICY (rule R66). -/
  misaligned : MisalignedPolicy
  deriving DecidableEq, Repr

/-! ## The state -/

/-- The machine. -/
structure State where
  /-- The general registers, in the order of `PhysReg` (rule R23). -/
  regs : Vector Word 30
  /-- R15: the address of the next instruction to fetch (rule R26). -/
  pc : Word
  /-- The CPSR (rule R30). -/
  cpsr : Cpsr
  /-- The SPSRs (rule R36). -/
  spsr : SpsrBank
  /-- Memory, the bytes that are not 0x00, by rising address (rules R60, R80);
  `Memory.wf` in Machine/Ops.lean is the form. -/
  mem : List Host.Cell
  /-- The index t of the instruction boundary (rules R346, R388). -/
  boundary : Nat
  /-- The platform's parameters (rules R5, R44). -/
  platform : Platform
  deriving DecidableEq, Repr

/-! ## Why a step stops -/

/-- The machine has no step from here. -/
inductive Fault where
  /-- Raised by a fetch or a data access at an address MEM_MAP does not admit for
  its kind and ABORT does not claim: stuck, `REFUSE("address not in memory map")`
  (rule R68). Safe: the machine stops where the platform decides. -/
  | notInMemoryMap (kind : AccessKind) (addr : Word)
  /-- Raised by the step at the boundary where pc = HALT_ADDR: the run has ended and
  this state is its final state (rule R389). Safe. -/
  | runEnded
  deriving DecidableEq, Repr

/-- The spec gives the step no meaning: one name for each REFUSE (rule R14). Each is
safe: the machine stops where the hardware promises nothing. -/
inductive Refusal where
  /-- An instruction without a meaning yet; no arm of exec raises it. Safe. -/
  | notModelled (mnemonic : String)
  /-- The word matches no row, raised by the decoder (rule R112). Safe. -/
  | encodingNotInScope
  /-- Condition 1111 outside BLX label, raised by the decoder (rule R114). Safe. -/
  | cond1111
  /-- A register choice the spec refuses whatever the condition, raised by every
  meaning that has restrictions (rules R22, R153). Safe. -/
  | unpredictable (why : Restriction)
  /-- A fetch in Thumb state, raised by the step (rule R37). Safe. -/
  | thumbState
  /-- Sequential execution past 0xFFFFFFFC, raised by every meaning that does not
  branch (rule R27). Safe. -/
  | pastTopOfMemory
  /-- A branch target outside the address space, raised by B, BL and BLX label
  (rules R131, R132, R135). Safe. -/
  | branchWraps
  /-- A misaligned target for ARM state, raised by BX (rule R133). Safe. -/
  | bxMisaligned
  /-- A misaligned target for ARM state, raised by BLX register (rule R134). Safe. -/
  | blxMisaligned
  /-- A misaligned value written to the PC, raised by data processing with Rd = R15
  and S = 0 (rule R203). Safe. -/
  | misalignedPcWrite
  /-- S with Rd = R15 in User or System mode, raised by data processing (rule R203).
  Safe. -/
  | returnWithoutSpsr
  /-- An SPSR with an illegal mode copied to the CPSR, raised by data processing
  (rule R203). Safe. -/
  | illegalModeRestored
  /-- A return address misaligned for the restored state, raised by data processing
  (rule R203). Safe. -/
  | misalignedReturn
  /-- SPSR access in User or System mode, raised by MRS and MSR (rules R271, R275).
  Safe. -/
  | noSpsr
  /-- An operand with reserved PSR bits set, raised by MSR (rule R275). Safe. -/
  | msrReservedBits
  /-- An operand that would set T in the CPSR, raised by MSR (rule R275). Safe. -/
  | msrSetsT
  /-- An operand with an illegal mode, raised by MSR (rule R275). Safe. -/
  | msrIllegalMode
  /-- A misaligned data access the policy gives no meaning, raised by the transfers
  (rule R66). Safe. -/
  | misalignedAccess
  /-- A word with bits 1:0 = 10 loaded to the PC, raised by LDR (rule R293). Safe. -/
  | loadPcMisaligned
  /-- A store to a byte admitted for fetch, raised by the transfers (rule R78). Safe. -/
  | storeIntoProgramText
  deriving DecidableEq, Repr

/-- What a step, and the meaning of an instruction, answers. -/
abbrev Result := Host.Outcome State Fault Refusal

/-! ## Reset -/

/-- DESIGN CHOICE (log 3): the value of an SPSR nothing has written, all bits 0. -/
def Spsr.zero : Spsr :=
  { n := false, z := false, c := false, v := false, i := false, f := false, t := false, m := 0 }

/-- The CPSR after reset: svc, I = F = 1, T = 0 (rule R43); N, Z, C, V are a DESIGN
CHOICE (log 2): 0. -/
def Cpsr.reset : Cpsr :=
  { n := false, z := false, c := false, v := false, i := true, f := true, t := false,
    mode := .svc }

/-- DESIGN CHOICE (log 5, 7, 8, 12): the platform a run starts with when it names
none: every address admits data reads and writes, none a fetch; no abort, no
interrupt, no end address (the defaults of rules R69, R344); misaligned accesses
are refused (rule R5). -/
def Platform.default : Platform :=
  { memMap := [{ base := 0, size := 4294967296, fetch := false, read := true, write := true }]
    aborts := [], irqAt := [], fiqAt := [], haltAddr := none, misaligned := .refuse }

/-- The machine right after reset (rule R43): the pc at VECTOR_BASE + 0x00, the CPSR
as above. The registers and SPSRs the rule gives no value hold 0, a DESIGN CHOICE
(log 1, 3); memory lists nothing (log 4). -/
def State.reset : State :=
  { regs := Vector.replicate 30 0#32
    pc := 0x00000000#32
    cpsr := Cpsr.reset
    spsr := { fiq := .zero, irq := .zero, svc := .zero, abt := .zero, und := .zero }
    mem := []
    boundary := 0
    platform := Platform.default }

end Sys2Proof.Machine
end

