-- ==== Sys2Proof/Machine/Psr.lean ====
section
/-!
DEFINITION. The modes and the program status registers as words (spec 10_state.md
rules R30 to R40).
-/

namespace Sys2Proof.Machine

/-! ## Modes -/

/-- M[4:0] of a mode (rule R34). -/
def Mode.toBits (m : Mode) : BitVec 5 :=
  match m with
  | .usr => 0b10000#5
  | .fiq => 0b10001#5
  | .irq => 0b10010#5
  | .svc => 0b10011#5
  | .abt => 0b10111#5
  | .und => 0b11011#5
  | .sys => 0b11111#5

/-- The mode of M[4:0]; every value outside the table of rule R34 is illegal. -/
def Mode.ofBits (m : BitVec 5) : Option Mode :=
  match m.toNat with
  | 0x10 => some .usr
  | 0x11 => some .fiq
  | 0x12 => some .irq
  | 0x13 => some .svc
  | 0x17 => some .abt
  | 0x1B => some .und
  | 0x1F => some .sys
  | _ => none

/-- InAPrivilegedMode (rule R40). -/
def Mode.privileged (m : Mode) : Bool := m != .usr

/-- The mode as an exception mode; none where CurrentModeHasSPSR is false (rule R40). -/
def Mode.exc (m : Mode) : Option ExcMode :=
  match m with
  | .usr => none
  | .fiq => some .fiq
  | .irq => some .irq
  | .svc => some .svc
  | .abt => some .abt
  | .und => some .und
  | .sys => none

/-- An exception mode as a mode. -/
def ExcMode.toMode (e : ExcMode) : Mode :=
  match e with
  | .fiq => .fiq
  | .irq => .irq
  | .svc => .svc
  | .abt => .abt
  | .und => .und

/-! ## The registers as words -/

/-- The 32-bit layout of rule R30, with bits 27:8 zero (rule R35). -/
def psrWord (n z c v i f t : Bool) (m : BitVec 5) : Word :=
  BitVec.ofBool n ++ BitVec.ofBool z ++ BitVec.ofBool c ++ BitVec.ofBool v ++ 0#20
    ++ BitVec.ofBool i ++ BitVec.ofBool f ++ BitVec.ofBool t ++ m

/-- The CPSR as a word, what MRS reads (rules R30, R271). -/
def Cpsr.toWord (p : Cpsr) : Word := psrWord p.n p.z p.c p.v p.i p.f p.t p.mode.toBits

/-- An SPSR as a word (rule R36). -/
def Spsr.toWord (p : Spsr) : Word := psrWord p.n p.z p.c p.v p.i p.f p.t p.m

/-- What exception entry saves: the CPSR, item by item (rules R36, R340). -/
def Spsr.ofCpsr (p : Cpsr) : Spsr :=
  { n := p.n, z := p.z, c := p.c, v := p.v, i := p.i, f := p.f, t := p.t, m := p.mode.toBits }

/-- The CPSR an SPSR restores; none where its mode is illegal (rules R36, R203). -/
def Cpsr.ofSpsr (p : Spsr) : Option Cpsr :=
  match Mode.ofBits p.m with
  | none => none
  | some m => some { n := p.n, z := p.z, c := p.c, v := p.v, i := p.i, f := p.f, t := p.t, mode := m }

/-- SPSR_<mode> (rule R36). -/
def SpsrBank.get (b : SpsrBank) (e : ExcMode) : Spsr :=
  match e with
  | .fiq => b.fiq
  | .irq => b.irq
  | .svc => b.svc
  | .abt => b.abt
  | .und => b.und

/-- `SPSR_<mode> <- p` (rule R36). -/
def SpsrBank.set (b : SpsrBank) (e : ExcMode) (p : Spsr) : SpsrBank :=
  match e with
  | .fiq => { b with fiq := p }
  | .irq => { b with irq := p }
  | .svc => { b with svc := p }
  | .abt => { b with abt := p }
  | .und => { b with und := p }

/-! ## The masked writes of MSR (rule R274)

`mask` is the field mask: bit 0 names the control byte, bit 3 the flag byte; the
bytes of bits 1 and 2 hold reserved bits only, which are never written. -/

/-- `_f`: the flags of the operand. -/
def Cpsr.writeFlags (p : Cpsr) (operand : Word) : Cpsr :=
  { p with
    n := operand.getLsbD 31, z := operand.getLsbD 30
    c := operand.getLsbD 29, v := operand.getLsbD 28 }

/-- `_c` of the CPSR: I, F and M of the operand, never T. -/
def Cpsr.writeControl (p : Cpsr) (operand : Word) (m : Mode) : Cpsr :=
  { p with i := operand.getLsbD 7, f := operand.getLsbD 6, mode := m }

/-- `_f` of an SPSR. -/
def Spsr.writeFlags (p : Spsr) (operand : Word) : Spsr :=
  { p with
    n := operand.getLsbD 31, z := operand.getLsbD 30
    c := operand.getLsbD 29, v := operand.getLsbD 28 }

/-- `_c` of an SPSR: I, F, T and M of the operand. -/
def Spsr.writeControl (p : Spsr) (operand : Word) : Spsr :=
  { p with
    i := operand.getLsbD 7, f := operand.getLsbD 6, t := operand.getLsbD 5
    m := operand.extractLsb' 0 5 }

end Sys2Proof.Machine
end

