-- ==== Sys2Proof/Machine/Ops.lean ====
section
/-!
DEFINITION. The named operations over registers and memory, taking an exception and
returning from one (spec 10_state.md, 20_memory.md, 60_exceptions.md).
-/

namespace Sys2Proof.Machine

/-! ## General registers (rules R23, R24) -/

/-- The place of a register in `State.regs`. -/
def PhysReg.index (p : PhysReg) : Fin 30 :=
  match p with
  | .r0 => 0 | .r1 => 1 | .r2 => 2 | .r3 => 3 | .r4 => 4 | .r5 => 5 | .r6 => 6 | .r7 => 7
  | .r8 => 8 | .r9 => 9 | .r10 => 10 | .r11 => 11 | .r12 => 12 | .r13 => 13 | .r14 => 14
  | .r8_fiq => 15 | .r9_fiq => 16 | .r10_fiq => 17 | .r11_fiq => 18 | .r12_fiq => 19
  | .r13_fiq => 20 | .r14_fiq => 21 | .r13_irq => 22 | .r14_irq => 23
  | .r13_svc => 24 | .r14_svc => 25 | .r13_abt => 26 | .r14_abt => 27
  | .r13_und => 28 | .r14_und => 29

/-- A general register. -/
def State.reg (s : State) (p : PhysReg) : Word := s.regs[p.index]

/-- `p <- v`. -/
def State.setReg (s : State) (p : PhysReg) (v : Word) : State :=
  { s with regs := s.regs.set p.index v }

/-- R13 of a mode. -/
def stackReg (m : Mode) : PhysReg :=
  match m with
  | .usr => .r13 | .fiq => .r13_fiq | .irq => .r13_irq | .svc => .r13_svc
  | .abt => .r13_abt | .und => .r13_und | .sys => .r13

/-- R14 of a mode, the link register (rule R21). -/
def linkReg (m : Mode) : PhysReg :=
  match m with
  | .usr => .r14 | .fiq => .r14_fiq | .irq => .r14_irq | .svc => .r14_svc
  | .abt => .r14_abt | .und => .r14_und | .sys => .r14

/-- One of two copies: that of fiq mode, that of the other modes. -/
def fiqElse (m : Mode) (fiq other : PhysReg) : PhysReg :=
  match m with
  | .fiq => fiq
  | .usr | .irq | .svc | .abt | .und | .sys => other

/-- The register that R`i` names in a mode; none for R15, the pc (rule R24). -/
def visible (m : Mode) (i : Reg) : Option PhysReg :=
  match i.toNat with
  | 0 => some .r0 | 1 => some .r1 | 2 => some .r2 | 3 => some .r3
  | 4 => some .r4 | 5 => some .r5 | 6 => some .r6 | 7 => some .r7
  | 8 => some (fiqElse m .r8_fiq .r8)
  | 9 => some (fiqElse m .r9_fiq .r9)
  | 10 => some (fiqElse m .r10_fiq .r10)
  | 11 => some (fiqElse m .r11_fiq .r11)
  | 12 => some (fiqElse m .r12_fiq .r12)
  | 13 => some (stackReg m)
  | 14 => some (linkReg m)
  | _ => none

/-- `x[i]`; R15 reads the address of the instruction plus 8 (rules R10, R28). -/
def State.readReg (s : State) (i : Reg) : Word :=
  match visible s.cpsr.mode i with
  | some p => s.reg p
  | none => s.pc + 8

/-- `x[i] <- v` (rule R10). -/
def State.writeReg (s : State) (i : Reg) (v : Word) : State :=
  match visible s.cpsr.mode i with
  | some p => s.setReg p v
  | none => { s with pc := v }

/-! ## The program counter -/

/-- `pc <- instr_addr + 4`, refused at the top of memory (rule R27). -/
def advance (s : State) : Result :=
  if s.pc.toNat + 4 < 2 ^ 32 then .next { s with pc := s.pc + 4 }
  else .refused .pastTopOfMemory

/-! ## Memory (rules R60, R64)

The memory lists the bytes that are not what an unlisted address reads as. -/

/-- DESIGN CHOICE (log 4): what a byte that nothing has written reads as. -/
def Memory.unlisted : Byte := 0x00#8

/-- The byte at an address. -/
def Memory.get (m : List Host.Cell) (a : Nat) : Byte :=
  match m with
  | [] => Memory.unlisted
  | (k, b) :: rest => if a = k then b else Memory.get rest a

/-- The memory with a byte written; a byte that reads as an unlisted one is not listed. -/
def Memory.set (m : List Host.Cell) (a : Nat) (b : Byte) : List Host.Cell :=
  match m with
  | [] => if b = Memory.unlisted then [] else [(a, b)]
  | (k, c) :: rest =>
    if a < k then
      if b = Memory.unlisted then (k, c) :: rest else (a, b) :: (k, c) :: rest
    else if a = k then
      if b = Memory.unlisted then rest else (a, b) :: rest
    else (k, c) :: Memory.set rest a b

/-- The addresses rise strictly from `lo` on, are addresses (rule R60), and no byte
is what an unlisted address reads as. -/
def Memory.wfFrom (lo : Nat) (m : List Host.Cell) : Bool :=
  match m with
  | [] => true
  | (k, b) :: rest =>
    decide (lo ≤ k) && decide (k < 2 ^ 32) && (b != Memory.unlisted) && Memory.wfFrom (k + 1) rest

/-- The canonical form: equal memories are equal lists. -/
def Memory.wf (m : List Host.Cell) : Bool := Memory.wfFrom 0 m

/-- The byte at an address. -/
def State.readByte (s : State) (a : Word) : Byte := Memory.get s.mem a.toNat

/-- `byte at a <- b`. -/
def State.writeByte (s : State) (a : Word) (b : Byte) : State :=
  { s with mem := Memory.set s.mem a.toNat b }

/-- `MemRead(a, 2)` (rule R64). -/
def State.readHalf (s : State) (a : Word) : BitVec 16 := s.readByte (a + 1) ++ s.readByte a

/-- `MemRead(a, 4)` (rule R64). -/
def State.readWord (s : State) (a : Word) : Word :=
  s.readByte (a + 3) ++ s.readByte (a + 2) ++ s.readByte (a + 1) ++ s.readByte a

/-- `MemWrite(a, 2, v)` (rule R64). -/
def State.writeHalf (s : State) (a : Word) (v : BitVec 16) : State :=
  (s.writeByte a (v.extractLsb' 0 8)).writeByte (a + 1) (v.extractLsb' 8 8)

/-- `MemWrite(a, 4, v)` (rule R64). -/
def State.writeWord (s : State) (a : Word) (v : Word) : State :=
  (((s.writeByte a (v.extractLsb' 0 8)).writeByte (a + 1) (v.extractLsb' 8 8)).writeByte
    (a + 2) (v.extractLsb' 16 8)).writeByte (a + 3) (v.extractLsb' 24 8)

/-- The bytes of a list at consecutive addresses from `a` on. -/
def State.writeBytes (s : State) (a : Word) (bs : List Byte) : State :=
  match bs with
  | [] => s
  | b :: rest => (s.writeByte a b).writeBytes (a + 1) rest

/-! ## Admission and aborts (rules R68, R69) -/

/-- The widths of an access (rule R71). -/
inductive Width where
  | byte | half | word
  deriving DecidableEq, Repr

/-- The byte addresses an access touches (rule R62). -/
def Width.addresses (w : Width) (a : Word) : List Word :=
  match w with
  | .byte => [a]
  | .half => [a, a + 1]
  | .word => [a, a + 1, a + 2, a + 3]

/-- Whether an access is aligned (rule R66). -/
def Width.aligned (w : Width) (a : Word) : Bool :=
  match w with
  | .byte => true
  | .half => a.extractLsb' 0 1 == 0
  | .word => a.extractLsb' 0 2 == 0

/-- Whether a region stands for a kind of access. -/
def Region.hasKind (r : Region) (k : AccessKind) : Bool :=
  match k with
  | .fetch => r.fetch
  | .read => r.read
  | .write => r.write

/-- Whether an address lies in a region. -/
def Region.contains (r : Region) (a : Word) : Bool :=
  decide (r.base ≤ a.toNat) && decide (a.toNat < r.base + r.size)

/-- Whether MEM_MAP admits an access to a byte (rule R68). -/
def Platform.admits (p : Platform) (k : AccessKind) (a : Word) : Bool :=
  p.memMap.any fun r => r.hasKind k && r.contains a

/-- ABORT(a, k) (rule R69), judged at the address of the access (log 7). -/
def Platform.abortsAt (p : Platform) (k : AccessKind) (a : Word) : Bool :=
  p.aborts.any fun r => r.hasKind k && r.contains a

/-! ## Exceptions (rules R331, R340) -/

/-- The exceptions of rule R331 but Reset. -/
inductive ExceptionKind where
  | undefinedInstruction | softwareInterrupt | prefetchAbort | dataAbort | irq | fiq
  deriving DecidableEq, Repr

/-- The vector offset. -/
def ExceptionKind.vector (k : ExceptionKind) : Word :=
  match k with
  | .undefinedInstruction => 0x04#32
  | .softwareInterrupt => 0x08#32
  | .prefetchAbort => 0x0C#32
  | .dataAbort => 0x10#32
  | .irq => 0x18#32
  | .fiq => 0x1C#32

/-- The mode entered. -/
def ExceptionKind.mode (k : ExceptionKind) : ExcMode :=
  match k with
  | .undefinedInstruction => .und
  | .softwareInterrupt => .svc
  | .prefetchAbort => .abt
  | .dataAbort => .abt
  | .irq => .irq
  | .fiq => .fiq

/-- What R14 of the new mode holds above the address of the instruction that caused
the exception, or that an interrupt kept from executing. -/
def ExceptionKind.linkOffset (k : ExceptionKind) : Word :=
  match k with
  | .dataAbort => 8
  | .undefinedInstruction | .softwareInterrupt | .prefetchAbort | .irq | .fiq => 4

/-- Whether the entry sets F. -/
def ExceptionKind.masksFiq (k : ExceptionKind) : Bool :=
  match k with
  | .fiq => true
  | .undefinedInstruction | .softwareInterrupt | .prefetchAbort | .dataAbort | .irq => false

/-- TakeException (rule R340), in a state whose pc is instr_addr, or next_addr for an
interrupt (rule R331). -/
def takeException (k : ExceptionKind) (s : State) : State :=
  { s.setReg (linkReg k.mode.toMode) (s.pc + k.linkOffset) with
    spsr := s.spsr.set k.mode (Spsr.ofCpsr s.cpsr)
    cpsr := { s.cpsr with mode := k.mode.toMode, t := false, i := true, f := s.cpsr.f || k.masksFiq }
    pc := Config.vectorBase + k.vector }

/-- The return from an exception (rules R342, R203): the SPSR of the current mode to
the CPSR, `target` to the pc. -/
def returnFromException (target : Word) (s : State) : Result :=
  match s.cpsr.mode.exc with
  | none => .refused .returnWithoutSpsr
  | some e =>
    match Cpsr.ofSpsr (s.spsr.get e) with
    | none => .refused .illegalModeRestored
    | some p =>
      if p.t = false ∧ target.extractLsb' 0 2 ≠ 0 then .refused .misalignedReturn
      else if p.t = true ∧ target.getLsbD 0 = true then .refused .misalignedReturn
      else .next { s with cpsr := p, pc := target }

/-- Reset during a run (rule R332): the state of rule R380, with memory and the
platform as they stand. No step performs it. -/
def State.restart (s : State) : State :=
  { State.reset with mem := s.mem, platform := s.platform }

/-! ## What every conditional instruction does first (rules R152, R153) -/

/-- ConditionPassed (rule R152), the table of rule R151. -/
def conditionPassed (c : Cond) (p : Cpsr) : Bool :=
  match c with
  | .eq => p.z
  | .ne => !p.z
  | .cs => p.c
  | .cc => !p.c
  | .mi => p.n
  | .pl => !p.n
  | .vs => p.v
  | .vc => !p.v
  | .hi => p.c && !p.z
  | .ls => !p.c || p.z
  | .ge => p.n == p.v
  | .lt => p.n != p.v
  | .gt => !p.z && p.n == p.v
  | .le => p.z || p.n != p.v
  | .al => true

/-- An operand restriction is refused whatever the condition; if the condition fails
the instruction only advances the pc (rule R153). -/
def guarded (r : Option Restriction) (c : Cond) (body : State → Result) (s : State) : Result :=
  match r with
  | some why => .refused (.unpredictable why)
  | none => if conditionPassed c s.cpsr = true then body s else advance s

end Sys2Proof.Machine
end

