-- ==== Sys2Proof/Machine/Branch.lean ====
section
/-!
DEFINITION. The branches B, BL, BX, BLX (spec 40_branch.md rules R130 to R137).
-/

namespace Sys2Proof.Machine

/-- `sext_32(imm24 : 0b00)`, the offset of a branch (rules R131, R132, R135). -/
def branchOffset (imm24 : BitVec 24) : Word := (imm24 ++ 0b00#2).signExtend 32

/-- The target of a branch as an unbounded integer (rule R131); `half` is 2 * H of
BLX label (rule R135), else 0. -/
def branchTarget (imm24 : BitVec 24) (half : Nat) (s : State) : Int :=
  s.pc.toNat + 8 + (branchOffset imm24).toInt + half

/-- `pc <- t`, refused where `t` is not in 0 to `last` (rules R131, R132, R135). -/
def branchTo (t last : Int) (s : State) : Result :=
  if t < 0 ∨ last < t then .refused .branchWraps
  else .next { s with pc := BitVec.ofInt 32 t }

/-- `x[14] <- instr_addr + 4` (rules R132, R134, R135). -/
def link (s : State) : State := s.writeReg 14 (s.pc + 4)

/-- T from bit 0 of `v`, the pc from the rest; `misaligned` is the refusal of a target
that ARM state does not admit (rules R133, R134). -/
def exchange (misaligned : Refusal) (v : Word) (s : State) : Result :=
  if v.getLsbD 0 = false ∧ v.getLsbD 1 = true then .refused misaligned
  else .next { s with cpsr := { s.cpsr with t := v.getLsbD 0 }, pc := v &&& 0xFFFFFFFE }

/-- B (rule R131). -/
def execB (c : Cond) (imm24 : BitVec 24) (s : State) : Result :=
  guarded none c (fun s => branchTo (branchTarget imm24 0 s) 0xFFFFFFFC s) s

/-- BL (rule R132). -/
def execBl (c : Cond) (imm24 : BitVec 24) (s : State) : Result :=
  guarded none c (fun s => branchTo (branchTarget imm24 0 s) 0xFFFFFFFC (link s)) s

/-- BX (rule R133). -/
def execBx (c : Cond) (rm : Reg) (s : State) : Result :=
  guarded (notR15 .bxR15 rm) c (fun s => exchange .bxMisaligned (s.readReg rm) s) s

/-- BLX with a register; Rm is read before R14 is written (rule R134). -/
def execBlxReg (c : Cond) (rm : Reg) (s : State) : Result :=
  guarded (notR15 .blxR15 rm) c (fun s => exchange .blxMisaligned (s.readReg rm) (link s)) s

/-- BLX with a label, unconditional: T becomes 1 (rule R135). -/
def execBlxLabel (h : Bool) (imm24 : BitVec 24) (s : State) : Result :=
  let s' := link s
  branchTo (branchTarget imm24 (2 * h.toNat) s) 0xFFFFFFFE
    { s' with cpsr := { s'.cpsr with t := true } }

end Sys2Proof.Machine
end

