-- ==== Sys2Proof/Machine/Flags.lean ====
section
/-!
DEFINITION. The results and the condition flags of the operations (spec
43_data_processing.md rules R201, R202, R204 to R219; 44_multiply.md rule R258).
-/

namespace Sys2Proof.Machine

/-! ## Addition (rule R201) -/

/-- What AddWithCarry returns. -/
structure AddOut where
  /-- The sum modulo 2^32. -/
  value : Word
  /-- The carry out of bit 31. -/
  carry : Bool
  /-- Signed overflow. -/
  overflow : Bool
  deriving DecidableEq, Repr

/-- AddWithCarry (rule R201): the sums are computed exactly, then narrowed. -/
def addWithCarry (a b : Word) (cin : Bool) : AddOut :=
  let usum : Nat := a.toNat + b.toNat + cin.toNat
  let ssum : Int := a.toInt + b.toInt + cin.toNat
  let value : Word := BitVec.ofNat 32 usum
  { value := value, carry := decide (2 ^ 32 ≤ usum), overflow := decide (value.toInt ≠ ssum) }

/-! ## The sixteen operations (rules R204 to R219)

Each takes the first operand, Operand2, the shifter carry and the C flag before the
instruction. -/

/-- The result of an operation, the C flag it gives, and the V flag if it gives one. -/
structure AluOut where
  /-- The result. -/
  value : Word
  /-- The new C. -/
  carry : Bool
  /-- The new V; none where V is preserved, the logical class. -/
  overflow : Option Bool
  deriving DecidableEq, Repr

/-- The logical class: C is the shifter carry, V is preserved (rule R202). -/
def logical (value : Word) (sc : Bool) : AluOut :=
  { value := value, carry := sc, overflow := none }

/-- The arithmetic class: C and V of the addition (rule R202). -/
def arithmetic (o : AddOut) : AluOut :=
  { value := o.value, carry := o.carry, overflow := some o.overflow }

/-- AND (rule R204). -/
def aluAnd (rn op2 : Word) (sc _ : Bool) : AluOut := logical (rn &&& op2) sc

/-- EOR (rule R205). -/
def aluEor (rn op2 : Word) (sc _ : Bool) : AluOut := logical (rn ^^^ op2) sc

/-- SUB (rule R206). -/
def aluSub (rn op2 : Word) (_ _ : Bool) : AluOut := arithmetic (addWithCarry rn (~~~op2) true)

/-- RSB (rule R207). -/
def aluRsb (rn op2 : Word) (_ _ : Bool) : AluOut := arithmetic (addWithCarry op2 (~~~rn) true)

/-- ADD (rule R208). -/
def aluAdd (rn op2 : Word) (_ _ : Bool) : AluOut := arithmetic (addWithCarry rn op2 false)

/-- ADC (rule R209). -/
def aluAdc (rn op2 : Word) (_ c : Bool) : AluOut := arithmetic (addWithCarry rn op2 c)

/-- SBC (rule R210). -/
def aluSbc (rn op2 : Word) (_ c : Bool) : AluOut := arithmetic (addWithCarry rn (~~~op2) c)

/-- RSC (rule R211). -/
def aluRsc (rn op2 : Word) (_ c : Bool) : AluOut := arithmetic (addWithCarry op2 (~~~rn) c)

/-- TST (rule R212). -/
def aluTst (rn op2 : Word) (sc _ : Bool) : AluOut := logical (rn &&& op2) sc

/-- TEQ (rule R213). -/
def aluTeq (rn op2 : Word) (sc _ : Bool) : AluOut := logical (rn ^^^ op2) sc

/-- CMP (rule R214). -/
def aluCmp (rn op2 : Word) (_ _ : Bool) : AluOut := arithmetic (addWithCarry rn (~~~op2) true)

/-- CMN (rule R215). -/
def aluCmn (rn op2 : Word) (_ _ : Bool) : AluOut := arithmetic (addWithCarry rn op2 false)

/-- ORR (rule R216). -/
def aluOrr (rn op2 : Word) (sc _ : Bool) : AluOut := logical (rn ||| op2) sc

/-- MOV (rule R217); it has no first operand. -/
def aluMov (_ op2 : Word) (sc _ : Bool) : AluOut := logical op2 sc

/-- BIC (rule R218). -/
def aluBic (rn op2 : Word) (sc _ : Bool) : AluOut := logical (rn &&& ~~~op2) sc

/-- MVN (rule R219); it has no first operand. -/
def aluMvn (_ op2 : Word) (sc _ : Bool) : AluOut := logical (~~~op2) sc

/-! ## Writing the flags -/

/-- N, Z, C and V of an operation (rule R202). -/
def Cpsr.setFlags (p : Cpsr) (o : AluOut) : Cpsr :=
  { p with
    n := o.value.getLsbD 31, z := decide (o.value = 0)
    c := o.carry, v := o.overflow.getD p.v }

/-- The flags with S, unchanged without (rule R202). -/
def State.setFlags (s : State) (sf : Bool) (o : AluOut) : State :=
  if sf = true then { s with cpsr := s.cpsr.setFlags o } else s

/-- The flags of MUL and MLA with S: C is a free value, V is unchanged (rule R258, log 9). -/
def State.setMulFlags (s : State) (sf : Bool) (result : Word) : State :=
  if sf = true then
    { s with
      cpsr := { s.cpsr with
        n := result.getLsbD 31, z := decide (result = 0), c := Config.mulCarry s.boundary } }
  else s

/-- The flags of the long multiplies with S: C and V are free values (rule R258, log 9). -/
def State.setLongFlags (s : State) (sf : Bool) (result : BitVec 64) : State :=
  if sf = true then
    { s with
      cpsr := { s.cpsr with
        n := result.getLsbD 63, z := decide (result = 0), c := Config.mulCarry s.boundary
        v := Config.mulOverflow s.boundary } }
  else s

end Sys2Proof.Machine
end

