-- ==== Sys2Proof/Machine/Operands.lean ====
section
/-!
DEFINITION. The operand forms: Operand2 and the shifter (spec 42_operand2_shifter.md),
the offset and the address of a transfer (46_data_transfer.md rules R291, R292, R301).
-/

namespace Sys2Proof.Machine

/-! ## The shifter -/

/-- What the shifter delivers (rule R170). -/
structure ShifterOut where
  /-- The second operand. -/
  value : Word
  /-- The shifter carry output. -/
  carry : Bool
  deriving DecidableEq, Repr

/-- LSL by any amount (rules R174, R180, R181). -/
def shiftLsl (v : Word) (n : Nat) (c : Bool) : ShifterOut :=
  if n = 0 then { value := v, carry := c }
  else if n ≤ 31 then { value := v <<< n, carry := v.getLsbD (32 - n) }
  else if n = 32 then { value := 0, carry := v.getLsbD 0 }
  else { value := 0, carry := false }

/-- LSR by any amount (rules R175, R180, R182). -/
def shiftLsr (v : Word) (n : Nat) (c : Bool) : ShifterOut :=
  if n = 0 then { value := v, carry := c }
  else if n ≤ 31 then { value := v >>> n, carry := v.getLsbD (n - 1) }
  else if n = 32 then { value := 0, carry := v.getLsbD 31 }
  else { value := 0, carry := false }

/-- ASR by any amount (rules R176, R180, R183). -/
def shiftAsr (v : Word) (n : Nat) (c : Bool) : ShifterOut :=
  if n = 0 then { value := v, carry := c }
  else if n ≤ 31 then { value := v.sshiftRight n, carry := v.getLsbD (n - 1) }
  else { value := if v.getLsbD 31 = true then 0xFFFFFFFF else 0, carry := v.getLsbD 31 }

/-- ROR by any amount: 32 is subtracted from it until it is in 1 to 32 (rules R177,
R180, R184). -/
def shiftRor (v : Word) (n : Nat) (c : Bool) : ShifterOut :=
  if n = 0 then { value := v, carry := c }
  else
    let m := (n - 1) % 32 + 1
    if m = 32 then { value := v, carry := v.getLsbD 31 }
    else { value := v.rotateRight m, carry := v.getLsbD (m - 1) }

/-- RRX: C enters bit 31, bit 0 leaves (rule R178). -/
def shiftRrx (v : Word) (c : Bool) : ShifterOut :=
  { value := BitVec.ofBool c ++ v.extractLsb' 1 31, carry := v.getLsbD 0 }

/-- ShiftByImmediate: the code 0 stands for 32 in LSR and ASR and for RRX in ROR
(rules R173 to R178). -/
def shiftByImmediate (v : Word) (sh : ShiftType) (code : BitVec 5) (c : Bool) : ShifterOut :=
  match sh with
  | .lsl => shiftLsl v code.toNat c
  | .lsr => shiftLsr v (if code = 0 then 32 else code.toNat) c
  | .asr => shiftAsr v (if code = 0 then 32 else code.toNat) c
  | .ror => if code = 0 then shiftRrx v c else shiftRor v code.toNat c

/-- ShiftByRegister, by the low byte of Rs (rules R179 to R184). -/
def shiftByRegister (v : Word) (sh : ShiftType) (n : Nat) (c : Bool) : ShifterOut :=
  match sh with
  | .lsl => shiftLsl v n c
  | .lsr => shiftLsr v n c
  | .asr => shiftAsr v n c
  | .ror => shiftRor v n c

/-- The value of an immediate Operand2 (rule R171); MSR uses it too (rule R272). -/
def rotatedImmediate (rotate : BitVec 4) (imm8 : BitVec 8) : Word :=
  (imm8.setWidth 32).rotateRight (2 * rotate.toNat)

/-- ImmediateOperand (rule R171). -/
def immediateOperand (rotate : BitVec 4) (imm8 : BitVec 8) (c : Bool) : ShifterOut :=
  let op2 := rotatedImmediate rotate imm8
  { value := op2, carry := if rotate = 0 then c else op2.getLsbD 31 }

/-! ## Operand2 (rule R170) -/

/-- The three forms of Operand2. -/
inductive Operand2 where
  /-- An immediate. -/
  | imm (rotate : BitVec 4) (imm8 : BitVec 8)
  /-- A register shifted by a value. -/
  | shiftImm (shiftImm : BitVec 5) (sh : ShiftType) (rm : Reg)
  /-- A register shifted by a register. -/
  | shiftReg (rs : Reg) (sh : ShiftType) (rm : Reg)
  deriving DecidableEq, Repr

/-- ShifterOperand (rule R170). -/
def shifterOperand (o : Operand2) (s : State) : ShifterOut :=
  match o with
  | .imm rotate imm8 => immediateOperand rotate imm8 s.cpsr.c
  | .shiftImm code sh rm => shiftByImmediate (s.readReg rm) sh code s.cpsr.c
  | .shiftReg rs sh rm =>
    shiftByRegister (s.readReg rm) sh ((s.readReg rs).extractLsb' 0 8).toNat s.cpsr.c

/-- The restriction of rule R185. -/
def Operand2.restriction (o : Operand2) (rn rd : Reg) : Option Restriction :=
  match o with
  | .imm _ _ => none
  | .shiftImm _ _ _ => none
  | .shiftReg rs _ rm => shiftRegRestriction rn rd rs rm

/-! ## Transfer addresses -/

/-- The offsets of a transfer. -/
inductive Offset where
  /-- An immediate, zero-extended (rules R291, R301). -/
  | imm (v : Word)
  /-- A register, unshifted (rule R301). -/
  | reg (rm : Reg)
  /-- A register shifted by a value (rules R186, R291). -/
  | shifted (shiftImm : BitVec 5) (sh : ShiftType) (rm : Reg)
  deriving DecidableEq, Repr

/-- The value of an offset; the shifter carry is discarded (rule R186). -/
def Offset.value (o : Offset) (s : State) : Word :=
  match o with
  | .imm v => v
  | .reg rm => s.readReg rm
  | .shifted code sh rm => (shiftByImmediate (s.readReg rm) sh code s.cpsr.c).value

/-- The offset register, if there is one (rule R306). -/
def Offset.register (o : Offset) : Option Reg :=
  match o with
  | .imm _ => none
  | .reg rm => some rm
  | .shifted _ _ rm => some rm

/-- The offset of a word or byte transfer with I = 0 (rule R291). -/
def offset12 (imm12 : BitVec 12) : Offset := .imm (imm12.setWidth 32)

/-- The immediate offset of a halfword or signed transfer (rule R301). -/
def offset8 (immH immL : BitVec 4) : Offset := .imm ((immH ++ immL).setWidth 32)

/-- How a transfer forms its address (rule R292). -/
structure Addressing where
  /-- P: offset or pre-indexed, else post-indexed. -/
  pre : Bool
  /-- U: the offset is added, else subtracted. -/
  up : Bool
  /-- The base is written back: W with P = 1, always with P = 0. -/
  wb : Bool
  /-- The base register. -/
  rn : Reg
  /-- The offset. -/
  offset : Offset
  deriving DecidableEq, Repr

/-- Offset addressing, or pre-indexed where `w` (rule R292, P = 1). -/
def preIndexed (u w : Bool) (rn : Reg) (offset : Offset) : Addressing :=
  { pre := true, up := u, wb := w, rn := rn, offset := offset }

/-- Post-indexed addressing (rule R292, P = 0). -/
def postIndexed (u : Bool) (rn : Reg) (offset : Offset) : Addressing :=
  { pre := false, up := u, wb := true, rn := rn, offset := offset }

/-- `off_addr`, what write-back writes to the base (rule R292). -/
def Addressing.offAddr (am : Addressing) (s : State) : Word :=
  if am.up = true then s.readReg am.rn + am.offset.value s
  else s.readReg am.rn - am.offset.value s

/-- `addr`, the address of the access (rule R292). -/
def Addressing.addr (am : Addressing) (s : State) : Word :=
  if am.pre = true then am.offAddr s else s.readReg am.rn

/-- The restrictions of rule R306; `rd15` is what Rd = R15 breaks. -/
def Addressing.restriction (am : Addressing) (rd15 : Option Restriction) (rd : Reg) :
    Option Restriction :=
  transferRestriction rd15 am.wb am.rn rd am.offset.register

/-- `if wb: x[Rn] <- v` (rule R292). -/
def Addressing.writeBack (am : Addressing) (v : Word) (s : State) : State :=
  if am.wb = true then s.writeReg am.rn v else s

end Sys2Proof.Machine
end

