-- ==== Sys2Proof/Machine/DataProcessing.lean ====
section
/-!
DEFINITION. The data-processing instructions (spec 43_data_processing.md rules R200 to
R219): sixteen operations, each with the three forms of Operand2.
-/

namespace Sys2Proof.Machine

/-- WriteResult with a destination (rules R202, R203): R15 is a control transfer, and
with S the return from an exception. -/
def writeResult (sf : Bool) (rd : Reg) (o : AluOut) (s : State) : Result :=
  if rd = 15 then
    if sf = true then returnFromException o.value s
    else if o.value.extractLsb' 0 2 = 0 then .next { s with pc := o.value }
    else .refused .misalignedPcWrite
  else advance ((s.writeReg rd o.value).setFlags sf o)

/-- Type 3, both Rd and Rn (rule R200). -/
def dataProcessing (f : Word → Word → Bool → Bool → AluOut) (c : Cond) (sf : Bool) (rn rd : Reg)
    (op : Operand2) (s : State) : Result :=
  guarded (op.restriction rn rd) c
    (fun s =>
      let o := shifterOperand op s
      writeResult sf rd (f (s.readReg rn) o.value o.carry s.cpsr.c) s) s

/-- Type 2, no destination, the flags always written (rule R200). -/
def compare (f : Word → Word → Bool → Bool → AluOut) (c : Cond) (rn : Reg) (op : Operand2)
    (s : State) : Result :=
  guarded (op.restriction rn 0) c
    (fun s =>
      let o := shifterOperand op s
      advance (s.setFlags true (f (s.readReg rn) o.value o.carry s.cpsr.c))) s

/-- Type 1, no first operand (rule R200). -/
def move (f : Word → Word → Bool → Bool → AluOut) (c : Cond) (sf : Bool) (rd : Reg)
    (op : Operand2) (s : State) : Result :=
  guarded (op.restriction 0 rd) c
    (fun s =>
      let o := shifterOperand op s
      writeResult sf rd (f 0 o.value o.carry s.cpsr.c) s) s

/-! ## AND (rule R204) -/

/-- AND, immediate Operand2. -/
def execAndImm (c : Cond) (sf : Bool) (rn rd : Reg) (rotate : BitVec 4) (imm8 : BitVec 8)
    (s : State) : Result :=
  dataProcessing aluAnd c sf rn rd (.imm rotate imm8) s

/-- AND, register shifted by an amount in the word. -/
def execAndShiftImm (c : Cond) (sf : Bool) (rn rd : Reg) (shiftImm : BitVec 5) (sh : ShiftType)
    (rm : Reg) (s : State) : Result :=
  dataProcessing aluAnd c sf rn rd (.shiftImm shiftImm sh rm) s

/-- AND, register shifted by a register. -/
def execAndShiftReg (c : Cond) (sf : Bool) (rn rd rs : Reg) (sh : ShiftType) (rm : Reg)
    (s : State) : Result :=
  dataProcessing aluAnd c sf rn rd (.shiftReg rs sh rm) s

/-! ## EOR (rule R205) -/

/-- EOR, immediate Operand2. -/
def execEorImm (c : Cond) (sf : Bool) (rn rd : Reg) (rotate : BitVec 4) (imm8 : BitVec 8)
    (s : State) : Result :=
  dataProcessing aluEor c sf rn rd (.imm rotate imm8) s

/-- EOR, register shifted by an amount in the word. -/
def execEorShiftImm (c : Cond) (sf : Bool) (rn rd : Reg) (shiftImm : BitVec 5) (sh : ShiftType)
    (rm : Reg) (s : State) : Result :=
  dataProcessing aluEor c sf rn rd (.shiftImm shiftImm sh rm) s

/-- EOR, register shifted by a register. -/
def execEorShiftReg (c : Cond) (sf : Bool) (rn rd rs : Reg) (sh : ShiftType) (rm : Reg)
    (s : State) : Result :=
  dataProcessing aluEor c sf rn rd (.shiftReg rs sh rm) s

/-! ## SUB (rule R206) -/

/-- SUB, immediate Operand2. -/
def execSubImm (c : Cond) (sf : Bool) (rn rd : Reg) (rotate : BitVec 4) (imm8 : BitVec 8)
    (s : State) : Result :=
  dataProcessing aluSub c sf rn rd (.imm rotate imm8) s

/-- SUB, register shifted by an amount in the word. -/
def execSubShiftImm (c : Cond) (sf : Bool) (rn rd : Reg) (shiftImm : BitVec 5) (sh : ShiftType)
    (rm : Reg) (s : State) : Result :=
  dataProcessing aluSub c sf rn rd (.shiftImm shiftImm sh rm) s

/-- SUB, register shifted by a register. -/
def execSubShiftReg (c : Cond) (sf : Bool) (rn rd rs : Reg) (sh : ShiftType) (rm : Reg)
    (s : State) : Result :=
  dataProcessing aluSub c sf rn rd (.shiftReg rs sh rm) s

/-! ## RSB (rule R207) -/

/-- RSB, immediate Operand2. -/
def execRsbImm (c : Cond) (sf : Bool) (rn rd : Reg) (rotate : BitVec 4) (imm8 : BitVec 8)
    (s : State) : Result :=
  dataProcessing aluRsb c sf rn rd (.imm rotate imm8) s

/-- RSB, register shifted by an amount in the word. -/
def execRsbShiftImm (c : Cond) (sf : Bool) (rn rd : Reg) (shiftImm : BitVec 5) (sh : ShiftType)
    (rm : Reg) (s : State) : Result :=
  dataProcessing aluRsb c sf rn rd (.shiftImm shiftImm sh rm) s

/-- RSB, register shifted by a register. -/
def execRsbShiftReg (c : Cond) (sf : Bool) (rn rd rs : Reg) (sh : ShiftType) (rm : Reg)
    (s : State) : Result :=
  dataProcessing aluRsb c sf rn rd (.shiftReg rs sh rm) s

/-! ## ADD (rule R208) -/

/-- ADD, immediate Operand2. -/
def execAddImm (c : Cond) (sf : Bool) (rn rd : Reg) (rotate : BitVec 4) (imm8 : BitVec 8)
    (s : State) : Result :=
  dataProcessing aluAdd c sf rn rd (.imm rotate imm8) s

/-- ADD, register shifted by an amount in the word. -/
def execAddShiftImm (c : Cond) (sf : Bool) (rn rd : Reg) (shiftImm : BitVec 5) (sh : ShiftType)
    (rm : Reg) (s : State) : Result :=
  dataProcessing aluAdd c sf rn rd (.shiftImm shiftImm sh rm) s

/-- ADD, register shifted by a register. -/
def execAddShiftReg (c : Cond) (sf : Bool) (rn rd rs : Reg) (sh : ShiftType) (rm : Reg)
    (s : State) : Result :=
  dataProcessing aluAdd c sf rn rd (.shiftReg rs sh rm) s

/-! ## ADC (rule R209) -/

/-- ADC, immediate Operand2. -/
def execAdcImm (c : Cond) (sf : Bool) (rn rd : Reg) (rotate : BitVec 4) (imm8 : BitVec 8)
    (s : State) : Result :=
  dataProcessing aluAdc c sf rn rd (.imm rotate imm8) s

/-- ADC, register shifted by an amount in the word. -/
def execAdcShiftImm (c : Cond) (sf : Bool) (rn rd : Reg) (shiftImm : BitVec 5) (sh : ShiftType)
    (rm : Reg) (s : State) : Result :=
  dataProcessing aluAdc c sf rn rd (.shiftImm shiftImm sh rm) s

/-- ADC, register shifted by a register. -/
def execAdcShiftReg (c : Cond) (sf : Bool) (rn rd rs : Reg) (sh : ShiftType) (rm : Reg)
    (s : State) : Result :=
  dataProcessing aluAdc c sf rn rd (.shiftReg rs sh rm) s

/-! ## SBC (rule R210) -/

/-- SBC, immediate Operand2. -/
def execSbcImm (c : Cond) (sf : Bool) (rn rd : Reg) (rotate : BitVec 4) (imm8 : BitVec 8)
    (s : State) : Result :=
  dataProcessing aluSbc c sf rn rd (.imm rotate imm8) s

/-- SBC, register shifted by an amount in the word. -/
def execSbcShiftImm (c : Cond) (sf : Bool) (rn rd : Reg) (shiftImm : BitVec 5) (sh : ShiftType)
    (rm : Reg) (s : State) : Result :=
  dataProcessing aluSbc c sf rn rd (.shiftImm shiftImm sh rm) s

/-- SBC, register shifted by a register. -/
def execSbcShiftReg (c : Cond) (sf : Bool) (rn rd rs : Reg) (sh : ShiftType) (rm : Reg)
    (s : State) : Result :=
  dataProcessing aluSbc c sf rn rd (.shiftReg rs sh rm) s

/-! ## RSC (rule R211) -/

/-- RSC, immediate Operand2. -/
def execRscImm (c : Cond) (sf : Bool) (rn rd : Reg) (rotate : BitVec 4) (imm8 : BitVec 8)
    (s : State) : Result :=
  dataProcessing aluRsc c sf rn rd (.imm rotate imm8) s

/-- RSC, register shifted by an amount in the word. -/
def execRscShiftImm (c : Cond) (sf : Bool) (rn rd : Reg) (shiftImm : BitVec 5) (sh : ShiftType)
    (rm : Reg) (s : State) : Result :=
  dataProcessing aluRsc c sf rn rd (.shiftImm shiftImm sh rm) s

/-- RSC, register shifted by a register. -/
def execRscShiftReg (c : Cond) (sf : Bool) (rn rd rs : Reg) (sh : ShiftType) (rm : Reg)
    (s : State) : Result :=
  dataProcessing aluRsc c sf rn rd (.shiftReg rs sh rm) s

/-! ## TST (rule R212) -/

/-- TST, immediate Operand2. -/
def execTstImm (c : Cond) (rn : Reg) (rotate : BitVec 4) (imm8 : BitVec 8) (s : State) : Result :=
  compare aluTst c rn (.imm rotate imm8) s

/-- TST, register shifted by an amount in the word. -/
def execTstShiftImm (c : Cond) (rn : Reg) (shiftImm : BitVec 5) (sh : ShiftType) (rm : Reg)
    (s : State) : Result :=
  compare aluTst c rn (.shiftImm shiftImm sh rm) s

/-- TST, register shifted by a register. -/
def execTstShiftReg (c : Cond) (rn rs : Reg) (sh : ShiftType) (rm : Reg) (s : State) : Result :=
  compare aluTst c rn (.shiftReg rs sh rm) s

/-! ## TEQ (rule R213) -/

/-- TEQ, immediate Operand2. -/
def execTeqImm (c : Cond) (rn : Reg) (rotate : BitVec 4) (imm8 : BitVec 8) (s : State) : Result :=
  compare aluTeq c rn (.imm rotate imm8) s

/-- TEQ, register shifted by an amount in the word. -/
def execTeqShiftImm (c : Cond) (rn : Reg) (shiftImm : BitVec 5) (sh : ShiftType) (rm : Reg)
    (s : State) : Result :=
  compare aluTeq c rn (.shiftImm shiftImm sh rm) s

/-- TEQ, register shifted by a register. -/
def execTeqShiftReg (c : Cond) (rn rs : Reg) (sh : ShiftType) (rm : Reg) (s : State) : Result :=
  compare aluTeq c rn (.shiftReg rs sh rm) s

/-! ## CMP (rule R214) -/

/-- CMP, immediate Operand2. -/
def execCmpImm (c : Cond) (rn : Reg) (rotate : BitVec 4) (imm8 : BitVec 8) (s : State) : Result :=
  compare aluCmp c rn (.imm rotate imm8) s

/-- CMP, register shifted by an amount in the word. -/
def execCmpShiftImm (c : Cond) (rn : Reg) (shiftImm : BitVec 5) (sh : ShiftType) (rm : Reg)
    (s : State) : Result :=
  compare aluCmp c rn (.shiftImm shiftImm sh rm) s

/-- CMP, register shifted by a register. -/
def execCmpShiftReg (c : Cond) (rn rs : Reg) (sh : ShiftType) (rm : Reg) (s : State) : Result :=
  compare aluCmp c rn (.shiftReg rs sh rm) s

/-! ## CMN (rule R215) -/

/-- CMN, immediate Operand2. -/
def execCmnImm (c : Cond) (rn : Reg) (rotate : BitVec 4) (imm8 : BitVec 8) (s : State) : Result :=
  compare aluCmn c rn (.imm rotate imm8) s

/-- CMN, register shifted by an amount in the word. -/
def execCmnShiftImm (c : Cond) (rn : Reg) (shiftImm : BitVec 5) (sh : ShiftType) (rm : Reg)
    (s : State) : Result :=
  compare aluCmn c rn (.shiftImm shiftImm sh rm) s

/-- CMN, register shifted by a register. -/
def execCmnShiftReg (c : Cond) (rn rs : Reg) (sh : ShiftType) (rm : Reg) (s : State) : Result :=
  compare aluCmn c rn (.shiftReg rs sh rm) s

/-! ## ORR (rule R216) -/

/-- ORR, immediate Operand2. -/
def execOrrImm (c : Cond) (sf : Bool) (rn rd : Reg) (rotate : BitVec 4) (imm8 : BitVec 8)
    (s : State) : Result :=
  dataProcessing aluOrr c sf rn rd (.imm rotate imm8) s

/-- ORR, register shifted by an amount in the word. -/
def execOrrShiftImm (c : Cond) (sf : Bool) (rn rd : Reg) (shiftImm : BitVec 5) (sh : ShiftType)
    (rm : Reg) (s : State) : Result :=
  dataProcessing aluOrr c sf rn rd (.shiftImm shiftImm sh rm) s

/-- ORR, register shifted by a register. -/
def execOrrShiftReg (c : Cond) (sf : Bool) (rn rd rs : Reg) (sh : ShiftType) (rm : Reg)
    (s : State) : Result :=
  dataProcessing aluOrr c sf rn rd (.shiftReg rs sh rm) s

/-! ## MOV (rule R217) -/

/-- MOV, immediate Operand2. -/
def execMovImm (c : Cond) (sf : Bool) (rd : Reg) (rotate : BitVec 4) (imm8 : BitVec 8)
    (s : State) : Result :=
  move aluMov c sf rd (.imm rotate imm8) s

/-- MOV, register shifted by an amount in the word. -/
def execMovShiftImm (c : Cond) (sf : Bool) (rd : Reg) (shiftImm : BitVec 5) (sh : ShiftType)
    (rm : Reg) (s : State) : Result :=
  move aluMov c sf rd (.shiftImm shiftImm sh rm) s

/-- MOV, register shifted by a register. -/
def execMovShiftReg (c : Cond) (sf : Bool) (rd rs : Reg) (sh : ShiftType) (rm : Reg)
    (s : State) : Result :=
  move aluMov c sf rd (.shiftReg rs sh rm) s

/-! ## BIC (rule R218) -/

/-- BIC, immediate Operand2. -/
def execBicImm (c : Cond) (sf : Bool) (rn rd : Reg) (rotate : BitVec 4) (imm8 : BitVec 8)
    (s : State) : Result :=
  dataProcessing aluBic c sf rn rd (.imm rotate imm8) s

/-- BIC, register shifted by an amount in the word. -/
def execBicShiftImm (c : Cond) (sf : Bool) (rn rd : Reg) (shiftImm : BitVec 5) (sh : ShiftType)
    (rm : Reg) (s : State) : Result :=
  dataProcessing aluBic c sf rn rd (.shiftImm shiftImm sh rm) s

/-- BIC, register shifted by a register. -/
def execBicShiftReg (c : Cond) (sf : Bool) (rn rd rs : Reg) (sh : ShiftType) (rm : Reg)
    (s : State) : Result :=
  dataProcessing aluBic c sf rn rd (.shiftReg rs sh rm) s

/-! ## MVN (rule R219) -/

/-- MVN, immediate Operand2. -/
def execMvnImm (c : Cond) (sf : Bool) (rd : Reg) (rotate : BitVec 4) (imm8 : BitVec 8)
    (s : State) : Result :=
  move aluMvn c sf rd (.imm rotate imm8) s

/-- MVN, register shifted by an amount in the word. -/
def execMvnShiftImm (c : Cond) (sf : Bool) (rd : Reg) (shiftImm : BitVec 5) (sh : ShiftType)
    (rm : Reg) (s : State) : Result :=
  move aluMvn c sf rd (.shiftImm shiftImm sh rm) s

/-- MVN, register shifted by a register. -/
def execMvnShiftReg (c : Cond) (sf : Bool) (rd rs : Reg) (sh : ShiftType) (rm : Reg)
    (s : State) : Result :=
  move aluMvn c sf rd (.shiftReg rs sh rm) s

end Sys2Proof.Machine
end

