-- ==== Sys2Proof/Machine/Access.lean ====
section
/-!
DEFINITION. One data access: its checks in their order, the abort it may take, the
load and the store (spec 20_memory.md rules R66 to R78, 46_data_transfer.md rules
R292, R293, R307).
-/

namespace Sys2Proof.Machine

/-! ## The checks (rules R66, R70) -/

/-- What becomes of a data access. -/
inductive Access where
  /-- It is made at this address. -/
  | at (a : Word)
  /-- It takes a Data Abort. -/
  | abort
  /-- It is refused. -/
  | refused (r : Refusal)
  /-- It is stuck. -/
  | stuck (f : Fault)
  deriving DecidableEq, Repr

/-- The alignment check (rule R66). Under `rotateOrIgnore` a misaligned word access is
made at the aligned word; `toPc` says that the word goes to R15, which has no
misaligned form. -/
def checkAlignment (w : Width) (toPc : Bool) (a : Word) (p : MisalignedPolicy) : Access :=
  if w.aligned a = true then .at a
  else
    match p with
    | .refuse => .refused .misalignedAccess
    | .abort => .abort
    | .rotateOrIgnore =>
      if w = .word ∧ toPc = false then .at (a &&& 0xFFFFFFFC) else .refused .misalignedAccess

/-- ABORT, then the store into program text, then MEM_MAP (rules R68 to R70, R78, log 15). -/
def checkAdmission (k : AccessKind) (w : Width) (a : Word) (p : Platform) : Access :=
  if p.abortsAt k a = true then .abort
  else if k = .write ∧ (w.addresses a).any (p.admits .fetch) = true then
    .refused .storeIntoProgramText
  else if (w.addresses a).all (p.admits k) = true then .at a
  else .stuck (.notInMemoryMap k a)

/-- The checks of one data access (rule R70). -/
def checkAccess (k : AccessKind) (w : Width) (toPc : Bool) (a : Word) (p : Platform) : Access :=
  match checkAlignment w toPc a p.misaligned with
  | .at a' => checkAdmission k w a' p
  | .abort => .abort
  | .refused r => .refused r
  | .stuck f => .stuck f

/-- The Data Abort of a transfer: whether the base was updated is a free value (rules
R307, R336, log 10). -/
def dataAbort (am : Addressing) (s : State) : State :=
  takeException .dataAbort
    (if am.wb = true ∧ Config.abortUpdatesBase s.boundary = true then
      s.writeReg am.rn (am.offAddr s)
    else s)

/-! ## Loads -/

/-- The word at an address, rotated right by the bytes it is misaligned by (rule R66). -/
def State.loadWord (s : State) (a : Word) : Word :=
  (s.readWord (a &&& 0xFFFFFFFC)).rotateRight (8 * (a.extractLsb' 0 2).toNat)

/-- The byte at an address, zero-extended (rule R295). -/
def State.loadByte (s : State) (a : Word) : Word := (s.readByte a).setWidth 32

/-- The byte at an address, sign-extended (rule R304). -/
def State.loadSignedByte (s : State) (a : Word) : Word := (s.readByte a).signExtend 32

/-- The halfword at an address, zero-extended (rule R302). -/
def State.loadHalf (s : State) (a : Word) : Word := (s.readHalf a).setWidth 32

/-- The halfword at an address, sign-extended (rule R305). -/
def State.loadSignedHalf (s : State) (a : Word) : Word := (s.readHalf a).signExtend 32

/-- What a load does with its data: R15 takes T from bit 0 and the pc from the rest
(rule R293); the base is written back together with Rd (rule R292). -/
def finishLoad (am : Addressing) (rd : Reg) (data : Word) (s : State) : Result :=
  if rd = 15 then
    if data.extractLsb' 0 2 = 0b10#2 then .refused .loadPcMisaligned
    else
      .next (am.writeBack (am.offAddr s)
        { s with cpsr := { s.cpsr with t := data.getLsbD 0 }, pc := data &&& 0xFFFFFFFE })
  else advance (am.writeBack (am.offAddr s) (s.writeReg rd data))

/-- A load: `value` reads the data at the address; `rd15` is what Rd = R15 breaks. -/
def load (w : Width) (value : State → Word → Word) (rd15 : Option Restriction) (c : Cond)
    (am : Addressing) (rd : Reg) (s : State) : Result :=
  guarded (am.restriction rd15 rd) c
    (fun s =>
      match checkAccess .read w (rd == 15) (am.addr s) s.platform with
      | .at _ => finishLoad am rd (value s (am.addr s)) s
      | .abort => .next (dataAbort am s)
      | .refused r => .refused r
      | .stuck f => .fault f) s

/-! ## Stores -/

/-- MemWrite of the low bytes of a register (rules R294, R296, R303). -/
def State.storeAt (s : State) (w : Width) (a v : Word) : State :=
  match w with
  | .byte => s.writeByte a (v.extractLsb' 0 8)
  | .half => s.writeHalf a (v.extractLsb' 0 16)
  | .word => s.writeWord a v

/-- A store; `rd15` is what Rd = R15 breaks. -/
def store (w : Width) (rd15 : Option Restriction) (c : Cond) (am : Addressing) (rd : Reg)
    (s : State) : Result :=
  guarded (am.restriction rd15 rd) c
    (fun s =>
      match checkAccess .write w false (am.addr s) s.platform with
      | .at a => advance (am.writeBack (am.offAddr s) (s.storeAt w a (s.readReg rd)))
      | .abort => .next (dataAbort am s)
      | .refused r => .refused r
      | .stuck f => .fault f) s

end Sys2Proof.Machine
end

