-- ==== Sys2Proof/Machine/DataTransfer.lean ====
section
/-!
DEFINITION. The word and unsigned-byte transfers (spec 46_data_transfer.md rules R293 to R300).
-/

namespace Sys2Proof.Machine

/-! ## LDR (rule R293) -/

/-- LDR, immediate offset, offset or pre-indexed. -/
def execLdrImmPre (c : Cond) (u w : Bool) (rn rd : Reg) (imm12 : BitVec 12) (s : State) : Result :=
  load .word State.loadWord none c (preIndexed u w rn (offset12 imm12)) rd s

/-- LDR, immediate offset, post-indexed. -/
def execLdrImmPost (c : Cond) (u : Bool) (rn rd : Reg) (imm12 : BitVec 12) (s : State) : Result :=
  load .word State.loadWord none c (postIndexed u rn (offset12 imm12)) rd s

/-- LDR, shifted register offset, offset or pre-indexed. -/
def execLdrRegPre (c : Cond) (u w : Bool) (rn rd : Reg) (shiftImm : BitVec 5) (sh : ShiftType)
    (rm : Reg) (s : State) : Result :=
  load .word State.loadWord none c (preIndexed u w rn (.shifted shiftImm sh rm)) rd s

/-- LDR, shifted register offset, post-indexed. -/
def execLdrRegPost (c : Cond) (u : Bool) (rn rd : Reg) (shiftImm : BitVec 5) (sh : ShiftType)
    (rm : Reg) (s : State) : Result :=
  load .word State.loadWord none c (postIndexed u rn (.shifted shiftImm sh rm)) rd s

/-! ## STR (rule R294) -/

/-- STR, immediate offset, offset or pre-indexed. -/
def execStrImmPre (c : Cond) (u w : Bool) (rn rd : Reg) (imm12 : BitVec 12) (s : State) : Result :=
  store .word (some .storeR15) c (preIndexed u w rn (offset12 imm12)) rd s

/-- STR, immediate offset, post-indexed. -/
def execStrImmPost (c : Cond) (u : Bool) (rn rd : Reg) (imm12 : BitVec 12) (s : State) : Result :=
  store .word (some .storeR15) c (postIndexed u rn (offset12 imm12)) rd s

/-- STR, shifted register offset, offset or pre-indexed. -/
def execStrRegPre (c : Cond) (u w : Bool) (rn rd : Reg) (shiftImm : BitVec 5) (sh : ShiftType)
    (rm : Reg) (s : State) : Result :=
  store .word (some .storeR15) c (preIndexed u w rn (.shifted shiftImm sh rm)) rd s

/-- STR, shifted register offset, post-indexed. -/
def execStrRegPost (c : Cond) (u : Bool) (rn rd : Reg) (shiftImm : BitVec 5) (sh : ShiftType)
    (rm : Reg) (s : State) : Result :=
  store .word (some .storeR15) c (postIndexed u rn (.shifted shiftImm sh rm)) rd s

/-! ## LDRB (rule R295) -/

/-- LDRB, immediate offset, offset or pre-indexed. -/
def execLdrbImmPre (c : Cond) (u w : Bool) (rn rd : Reg) (imm12 : BitVec 12) (s : State) : Result :=
  load .byte State.loadByte (some .transferR15) c (preIndexed u w rn (offset12 imm12)) rd s

/-- LDRB, immediate offset, post-indexed. -/
def execLdrbImmPost (c : Cond) (u : Bool) (rn rd : Reg) (imm12 : BitVec 12) (s : State) : Result :=
  load .byte State.loadByte (some .transferR15) c (postIndexed u rn (offset12 imm12)) rd s

/-- LDRB, shifted register offset, offset or pre-indexed. -/
def execLdrbRegPre (c : Cond) (u w : Bool) (rn rd : Reg) (shiftImm : BitVec 5) (sh : ShiftType)
    (rm : Reg) (s : State) : Result :=
  load .byte State.loadByte (some .transferR15) c (preIndexed u w rn (.shifted shiftImm sh rm)) rd s

/-- LDRB, shifted register offset, post-indexed. -/
def execLdrbRegPost (c : Cond) (u : Bool) (rn rd : Reg) (shiftImm : BitVec 5) (sh : ShiftType)
    (rm : Reg) (s : State) : Result :=
  load .byte State.loadByte (some .transferR15) c (postIndexed u rn (.shifted shiftImm sh rm)) rd s

/-! ## STRB (rule R296) -/

/-- STRB, immediate offset, offset or pre-indexed. -/
def execStrbImmPre (c : Cond) (u w : Bool) (rn rd : Reg) (imm12 : BitVec 12) (s : State) : Result :=
  store .byte (some .transferR15) c (preIndexed u w rn (offset12 imm12)) rd s

/-- STRB, immediate offset, post-indexed. -/
def execStrbImmPost (c : Cond) (u : Bool) (rn rd : Reg) (imm12 : BitVec 12) (s : State) : Result :=
  store .byte (some .transferR15) c (postIndexed u rn (offset12 imm12)) rd s

/-- STRB, shifted register offset, offset or pre-indexed. -/
def execStrbRegPre (c : Cond) (u w : Bool) (rn rd : Reg) (shiftImm : BitVec 5) (sh : ShiftType)
    (rm : Reg) (s : State) : Result :=
  store .byte (some .transferR15) c (preIndexed u w rn (.shifted shiftImm sh rm)) rd s

/-- STRB, shifted register offset, post-indexed. -/
def execStrbRegPost (c : Cond) (u : Bool) (rn rd : Reg) (shiftImm : BitVec 5) (sh : ShiftType)
    (rm : Reg) (s : State) : Result :=
  store .byte (some .transferR15) c (postIndexed u rn (.shifted shiftImm sh rm)) rd s

/-! ## LDRT (rule R297): the access is that of the plain form (rule R74) -/

/-- LDRT, immediate offset. -/
def execLdrtImm (c : Cond) (u : Bool) (rn rd : Reg) (imm12 : BitVec 12) (s : State) : Result :=
  load .word State.loadWord (some .transferR15) c (postIndexed u rn (offset12 imm12)) rd s

/-- LDRT, shifted register offset. -/
def execLdrtReg (c : Cond) (u : Bool) (rn rd : Reg) (shiftImm : BitVec 5) (sh : ShiftType)
    (rm : Reg) (s : State) : Result :=
  load .word State.loadWord (some .transferR15) c (postIndexed u rn (.shifted shiftImm sh rm)) rd s

/-! ## STRT (rule R298): the access is that of the plain form (rule R74) -/

/-- STRT, immediate offset. -/
def execStrtImm (c : Cond) (u : Bool) (rn rd : Reg) (imm12 : BitVec 12) (s : State) : Result :=
  store .word (some .transferR15) c (postIndexed u rn (offset12 imm12)) rd s

/-- STRT, shifted register offset. -/
def execStrtReg (c : Cond) (u : Bool) (rn rd : Reg) (shiftImm : BitVec 5) (sh : ShiftType)
    (rm : Reg) (s : State) : Result :=
  store .word (some .transferR15) c (postIndexed u rn (.shifted shiftImm sh rm)) rd s

/-! ## LDRBT (rule R299): the access is that of the plain form (rule R74) -/

/-- LDRBT, immediate offset. -/
def execLdrbtImm (c : Cond) (u : Bool) (rn rd : Reg) (imm12 : BitVec 12) (s : State) : Result :=
  load .byte State.loadByte (some .transferR15) c (postIndexed u rn (offset12 imm12)) rd s

/-- LDRBT, shifted register offset. -/
def execLdrbtReg (c : Cond) (u : Bool) (rn rd : Reg) (shiftImm : BitVec 5) (sh : ShiftType)
    (rm : Reg) (s : State) : Result :=
  load .byte State.loadByte (some .transferR15) c (postIndexed u rn (.shifted shiftImm sh rm)) rd s

/-! ## STRBT (rule R300): the access is that of the plain form (rule R74) -/

/-- STRBT, immediate offset. -/
def execStrbtImm (c : Cond) (u : Bool) (rn rd : Reg) (imm12 : BitVec 12) (s : State) : Result :=
  store .byte (some .transferR15) c (postIndexed u rn (offset12 imm12)) rd s

/-- STRBT, shifted register offset. -/
def execStrbtReg (c : Cond) (u : Bool) (rn rd : Reg) (shiftImm : BitVec 5) (sh : ShiftType)
    (rm : Reg) (s : State) : Result :=
  store .byte (some .transferR15) c (postIndexed u rn (.shifted shiftImm sh rm)) rd s

end Sys2Proof.Machine
end

