-- ==== Sys2Proof/Machine/HalfwordTransfer.lean ====
section
/-!
DEFINITION. The halfword and signed transfers (spec 46_data_transfer.md rules R301 to R305).
-/

namespace Sys2Proof.Machine

/-! ## LDRH (rule R302) -/

/-- LDRH, immediate offset, offset or pre-indexed. -/
def execLdrhImmPre (c : Cond) (u w : Bool) (rn rd : Reg) (immH immL : BitVec 4)
    (s : State) : Result :=
  load .half State.loadHalf (some .transferR15) c (preIndexed u w rn (offset8 immH immL)) rd s

/-- LDRH, immediate offset, post-indexed. -/
def execLdrhImmPost (c : Cond) (u : Bool) (rn rd : Reg) (immH immL : BitVec 4)
    (s : State) : Result :=
  load .half State.loadHalf (some .transferR15) c (postIndexed u rn (offset8 immH immL)) rd s

/-- LDRH, register offset, offset or pre-indexed. -/
def execLdrhRegPre (c : Cond) (u w : Bool) (rn rd rm : Reg) (s : State) : Result :=
  load .half State.loadHalf (some .transferR15) c (preIndexed u w rn (.reg rm)) rd s

/-- LDRH, register offset, post-indexed. -/
def execLdrhRegPost (c : Cond) (u : Bool) (rn rd rm : Reg) (s : State) : Result :=
  load .half State.loadHalf (some .transferR15) c (postIndexed u rn (.reg rm)) rd s

/-! ## STRH (rule R303) -/

/-- STRH, immediate offset, offset or pre-indexed. -/
def execStrhImmPre (c : Cond) (u w : Bool) (rn rd : Reg) (immH immL : BitVec 4)
    (s : State) : Result :=
  store .half (some .transferR15) c (preIndexed u w rn (offset8 immH immL)) rd s

/-- STRH, immediate offset, post-indexed. -/
def execStrhImmPost (c : Cond) (u : Bool) (rn rd : Reg) (immH immL : BitVec 4)
    (s : State) : Result :=
  store .half (some .transferR15) c (postIndexed u rn (offset8 immH immL)) rd s

/-- STRH, register offset, offset or pre-indexed. -/
def execStrhRegPre (c : Cond) (u w : Bool) (rn rd rm : Reg) (s : State) : Result :=
  store .half (some .transferR15) c (preIndexed u w rn (.reg rm)) rd s

/-- STRH, register offset, post-indexed. -/
def execStrhRegPost (c : Cond) (u : Bool) (rn rd rm : Reg) (s : State) : Result :=
  store .half (some .transferR15) c (postIndexed u rn (.reg rm)) rd s

/-! ## LDRSB (rule R304) -/

/-- LDRSB, immediate offset, offset or pre-indexed. -/
def execLdrsbImmPre (c : Cond) (u w : Bool) (rn rd : Reg) (immH immL : BitVec 4)
    (s : State) : Result :=
  load .byte State.loadSignedByte (some .transferR15) c (preIndexed u w rn (offset8 immH immL)) rd s

/-- LDRSB, immediate offset, post-indexed. -/
def execLdrsbImmPost (c : Cond) (u : Bool) (rn rd : Reg) (immH immL : BitVec 4)
    (s : State) : Result :=
  load .byte State.loadSignedByte (some .transferR15) c (postIndexed u rn (offset8 immH immL)) rd s

/-- LDRSB, register offset, offset or pre-indexed. -/
def execLdrsbRegPre (c : Cond) (u w : Bool) (rn rd rm : Reg) (s : State) : Result :=
  load .byte State.loadSignedByte (some .transferR15) c (preIndexed u w rn (.reg rm)) rd s

/-- LDRSB, register offset, post-indexed. -/
def execLdrsbRegPost (c : Cond) (u : Bool) (rn rd rm : Reg) (s : State) : Result :=
  load .byte State.loadSignedByte (some .transferR15) c (postIndexed u rn (.reg rm)) rd s

/-! ## LDRSH (rule R305) -/

/-- LDRSH, immediate offset, offset or pre-indexed. -/
def execLdrshImmPre (c : Cond) (u w : Bool) (rn rd : Reg) (immH immL : BitVec 4)
    (s : State) : Result :=
  load .half State.loadSignedHalf (some .transferR15) c (preIndexed u w rn (offset8 immH immL)) rd s

/-- LDRSH, immediate offset, post-indexed. -/
def execLdrshImmPost (c : Cond) (u : Bool) (rn rd : Reg) (immH immL : BitVec 4)
    (s : State) : Result :=
  load .half State.loadSignedHalf (some .transferR15) c (postIndexed u rn (offset8 immH immL)) rd s

/-- LDRSH, register offset, offset or pre-indexed. -/
def execLdrshRegPre (c : Cond) (u w : Bool) (rn rd rm : Reg) (s : State) : Result :=
  load .half State.loadSignedHalf (some .transferR15) c (preIndexed u w rn (.reg rm)) rd s

/-- LDRSH, register offset, post-indexed. -/
def execLdrshRegPost (c : Cond) (u : Bool) (rn rd rm : Reg) (s : State) : Result :=
  load .half State.loadSignedHalf (some .transferR15) c (postIndexed u rn (.reg rm)) rd s

end Sys2Proof.Machine
end

