-- ==== Sys2Proof/Machine/Multiply.lean ====
section
/-!
DEFINITION. The multiplies (spec 44_multiply.md rules R250 to R259).
-/

namespace Sys2Proof.Machine

/-- MUL and MLA (rules R251, R252): the low 32 bits of the product plus `acc`. -/
def multiply (r : Option Restriction) (c : Cond) (sf : Bool) (rd rs rm : Reg)
    (acc : State → Word) (s : State) : Result :=
  guarded r c
    (fun s =>
      let result : Word := BitVec.ofNat 32
        ((s.readReg rm).toNat * (s.readReg rs).toNat + (acc s).toNat)
      advance ((s.writeReg rd result).setMulFlags sf result)) s

/-- RdHi:RdLo, the accumulator of UMLAL and SMLAL (rules R254, R256). -/
def accumulator (rdHi rdLo : Reg) (s : State) : BitVec 64 := s.readReg rdHi ++ s.readReg rdLo

/-- `UInt(rm) * UInt(rs)` (rules R253, R254). -/
def unsignedProduct (a b : Word) : BitVec 64 := BitVec.ofNat 64 (a.toNat * b.toNat)

/-- `SInt(rm) * SInt(rs)` (rules R255, R256). -/
def signedProduct (a b : Word) : BitVec 64 := BitVec.ofInt 64 (a.toInt * b.toInt)

/-- The long multiplies (rules R253 to R256): `p` of Rm and Rs plus `acc`, modulo 2^64. -/
def longMultiply (p : Word → Word → BitVec 64) (c : Cond) (sf : Bool) (rdHi rdLo rs rm : Reg)
    (acc : State → BitVec 64) (s : State) : Result :=
  guarded (mullRestriction rdHi rdLo rs rm) c
    (fun s =>
      let result := p (s.readReg rm) (s.readReg rs) + acc s
      advance (((s.writeReg rdHi (result.extractLsb' 32 32)).writeReg rdLo
        (result.extractLsb' 0 32)).setLongFlags sf result)) s

/-- MUL (rule R251). -/
def execMul (c : Cond) (sf : Bool) (rd rs rm : Reg) (s : State) : Result :=
  multiply (mulRestriction rd 0 rs rm) c sf rd rs rm (fun _ => 0) s

/-- MLA (rule R252). -/
def execMla (c : Cond) (sf : Bool) (rd rn rs rm : Reg) (s : State) : Result :=
  multiply (mulRestriction rd rn rs rm) c sf rd rs rm (fun s => s.readReg rn) s

/-- UMULL (rule R253). -/
def execUmull (c : Cond) (sf : Bool) (rdHi rdLo rs rm : Reg) (s : State) : Result :=
  longMultiply unsignedProduct c sf rdHi rdLo rs rm (fun _ => 0) s

/-- UMLAL (rule R254). -/
def execUmlal (c : Cond) (sf : Bool) (rdHi rdLo rs rm : Reg) (s : State) : Result :=
  longMultiply unsignedProduct c sf rdHi rdLo rs rm (accumulator rdHi rdLo) s

/-- SMULL (rule R255). -/
def execSmull (c : Cond) (sf : Bool) (rdHi rdLo rs rm : Reg) (s : State) : Result :=
  longMultiply signedProduct c sf rdHi rdLo rs rm (fun _ => 0) s

/-- SMLAL (rule R256). -/
def execSmlal (c : Cond) (sf : Bool) (rdHi rdLo rs rm : Reg) (s : State) : Result :=
  longMultiply signedProduct c sf rdHi rdLo rs rm (accumulator rdHi rdLo) s

end Sys2Proof.Machine
end

