-- ==== Sys2Proof/Machine/StatusTransfer.lean ====
section
/-!
DEFINITION. The status-register transfers MRS and MSR (spec
45_status_register_transfer.md rules R270 to R276).
-/

namespace Sys2Proof.Machine

/-- MSR to the CPSR: in User mode the flag byte only; elsewhere the control byte too,
with the checks of rule R275 on T and the mode (rule R274). -/
def msrCpsr (fieldMask : BitVec 4) (operand : Word) (s : State) : Result :=
  let flagged := if fieldMask.getLsbD 3 = true then s.cpsr.writeFlags operand else s.cpsr
  if s.cpsr.mode.privileged = true ∧ fieldMask.getLsbD 0 = true then
    if operand.getLsbD 5 = true then .refused .msrSetsT
    else
      match Mode.ofBits (operand.extractLsb' 0 5) with
      | none => .refused .msrIllegalMode
      | some m => advance { s with cpsr := flagged.writeControl operand m }
  else advance { s with cpsr := flagged }

/-- MSR to the SPSR of the current mode (rule R274). -/
def msrSpsr (fieldMask : BitVec 4) (operand : Word) (s : State) : Result :=
  match s.cpsr.mode.exc with
  | none => .refused .noSpsr
  | some e =>
    let old := s.spsr.get e
    let flagged := if fieldMask.getLsbD 3 = true then old.writeFlags operand else old
    let new := if fieldMask.getLsbD 0 = true then flagged.writeControl operand else flagged
    advance { s with spsr := s.spsr.set e new }

/-- The write common to both forms of MSR, after the checks of rule R275 in their
order: the reserved bits of the whole operand first. -/
def msrWrite (psr : PsrSel) (fieldMask : BitVec 4) (operand : Word) (s : State) : Result :=
  if operand.extractLsb' 8 20 ≠ 0 then .refused .msrReservedBits
  else
    match psr with
    | .cpsr => msrCpsr fieldMask operand s
    | .spsr => msrSpsr fieldMask operand s

/-- The status register MRS reads, as a word; none for an SPSR the mode has not
(rules R36, R271). -/
def readPsr (psr : PsrSel) (s : State) : Option Word :=
  match psr with
  | .cpsr => some s.cpsr.toWord
  | .spsr =>
    match s.cpsr.mode.exc with
    | none => none
    | some e => some (s.spsr.get e).toWord

/-- MRS (rule R271). -/
def execMrs (c : Cond) (psr : PsrSel) (rd : Reg) (s : State) : Result :=
  guarded (notR15 .mrsR15 rd) c
    (fun s =>
      match readPsr psr s with
      | none => .refused .noSpsr
      | some v => advance (s.writeReg rd v)) s

/-- MSR with an immediate (rule R272). -/
def execMsrImm (c : Cond) (psr : PsrSel) (fieldMask rotate : BitVec 4) (imm8 : BitVec 8)
    (s : State) : Result :=
  guarded none c (msrWrite psr fieldMask (rotatedImmediate rotate imm8)) s

/-- MSR with a register (rule R273). -/
def execMsrReg (c : Cond) (psr : PsrSel) (fieldMask : BitVec 4) (rm : Reg) (s : State) : Result :=
  guarded (notR15 .msrR15 rm) c (fun s => msrWrite psr fieldMask (s.readReg rm) s) s

end Sys2Proof.Machine
end

