-- ==== Sys2Proof/Machine/UndefinedSpace.lean ====
section
/-!
DEFINITION. The words of the undefined-instruction space (spec 30_encoding.md rule
R113, 60_exceptions.md rule R333).
-/

namespace Sys2Proof.Machine

/-- UNDEFINED: the Undefined Instruction exception, whatever the word's free bits; if
the condition fails nothing happens (rule R333). -/
def execUndefined (c : Cond) (_hi : BitVec 20) (_lo : BitVec 4) (s : State) : Result :=
  guarded none c (fun s => .next (takeException .undefinedInstruction s)) s

end Sys2Proof.Machine
end

