-- ==== Sys2Proof/Machine/Dispatch.lean ====
section
/-!
DEFINITION. One arm per constructor of `Instr`, each a direct call of its meaning.
-/

namespace Sys2Proof.Machine

def exec (i : Instr) (s : State) : Host.Outcome State Fault Refusal :=
  match i with
  | .andImm c sf rn rd rotate imm8 => Sys2Proof.Machine.execAndImm c sf rn rd rotate imm8 s
  | .andShiftImm c sf rn rd shiftImm sh rm => Sys2Proof.Machine.execAndShiftImm c sf rn rd shiftImm sh rm s
  | .andShiftReg c sf rn rd rs sh rm => Sys2Proof.Machine.execAndShiftReg c sf rn rd rs sh rm s
  | .eorImm c sf rn rd rotate imm8 => Sys2Proof.Machine.execEorImm c sf rn rd rotate imm8 s
  | .eorShiftImm c sf rn rd shiftImm sh rm => Sys2Proof.Machine.execEorShiftImm c sf rn rd shiftImm sh rm s
  | .eorShiftReg c sf rn rd rs sh rm => Sys2Proof.Machine.execEorShiftReg c sf rn rd rs sh rm s
  | .subImm c sf rn rd rotate imm8 => Sys2Proof.Machine.execSubImm c sf rn rd rotate imm8 s
  | .subShiftImm c sf rn rd shiftImm sh rm => Sys2Proof.Machine.execSubShiftImm c sf rn rd shiftImm sh rm s
  | .subShiftReg c sf rn rd rs sh rm => Sys2Proof.Machine.execSubShiftReg c sf rn rd rs sh rm s
  | .rsbImm c sf rn rd rotate imm8 => Sys2Proof.Machine.execRsbImm c sf rn rd rotate imm8 s
  | .rsbShiftImm c sf rn rd shiftImm sh rm => Sys2Proof.Machine.execRsbShiftImm c sf rn rd shiftImm sh rm s
  | .rsbShiftReg c sf rn rd rs sh rm => Sys2Proof.Machine.execRsbShiftReg c sf rn rd rs sh rm s
  | .addImm c sf rn rd rotate imm8 => Sys2Proof.Machine.execAddImm c sf rn rd rotate imm8 s
  | .addShiftImm c sf rn rd shiftImm sh rm => Sys2Proof.Machine.execAddShiftImm c sf rn rd shiftImm sh rm s
  | .addShiftReg c sf rn rd rs sh rm => Sys2Proof.Machine.execAddShiftReg c sf rn rd rs sh rm s
  | .adcImm c sf rn rd rotate imm8 => Sys2Proof.Machine.execAdcImm c sf rn rd rotate imm8 s
  | .adcShiftImm c sf rn rd shiftImm sh rm => Sys2Proof.Machine.execAdcShiftImm c sf rn rd shiftImm sh rm s
  | .adcShiftReg c sf rn rd rs sh rm => Sys2Proof.Machine.execAdcShiftReg c sf rn rd rs sh rm s
  | .sbcImm c sf rn rd rotate imm8 => Sys2Proof.Machine.execSbcImm c sf rn rd rotate imm8 s
  | .sbcShiftImm c sf rn rd shiftImm sh rm => Sys2Proof.Machine.execSbcShiftImm c sf rn rd shiftImm sh rm s
  | .sbcShiftReg c sf rn rd rs sh rm => Sys2Proof.Machine.execSbcShiftReg c sf rn rd rs sh rm s
  | .rscImm c sf rn rd rotate imm8 => Sys2Proof.Machine.execRscImm c sf rn rd rotate imm8 s
  | .rscShiftImm c sf rn rd shiftImm sh rm => Sys2Proof.Machine.execRscShiftImm c sf rn rd shiftImm sh rm s
  | .rscShiftReg c sf rn rd rs sh rm => Sys2Proof.Machine.execRscShiftReg c sf rn rd rs sh rm s
  | .tstImm c rn rotate imm8 => Sys2Proof.Machine.execTstImm c rn rotate imm8 s
  | .tstShiftImm c rn shiftImm sh rm => Sys2Proof.Machine.execTstShiftImm c rn shiftImm sh rm s
  | .tstShiftReg c rn rs sh rm => Sys2Proof.Machine.execTstShiftReg c rn rs sh rm s
  | .teqImm c rn rotate imm8 => Sys2Proof.Machine.execTeqImm c rn rotate imm8 s
  | .teqShiftImm c rn shiftImm sh rm => Sys2Proof.Machine.execTeqShiftImm c rn shiftImm sh rm s
  | .teqShiftReg c rn rs sh rm => Sys2Proof.Machine.execTeqShiftReg c rn rs sh rm s
  | .cmpImm c rn rotate imm8 => Sys2Proof.Machine.execCmpImm c rn rotate imm8 s
  | .cmpShiftImm c rn shiftImm sh rm => Sys2Proof.Machine.execCmpShiftImm c rn shiftImm sh rm s
  | .cmpShiftReg c rn rs sh rm => Sys2Proof.Machine.execCmpShiftReg c rn rs sh rm s
  | .cmnImm c rn rotate imm8 => Sys2Proof.Machine.execCmnImm c rn rotate imm8 s
  | .cmnShiftImm c rn shiftImm sh rm => Sys2Proof.Machine.execCmnShiftImm c rn shiftImm sh rm s
  | .cmnShiftReg c rn rs sh rm => Sys2Proof.Machine.execCmnShiftReg c rn rs sh rm s
  | .orrImm c sf rn rd rotate imm8 => Sys2Proof.Machine.execOrrImm c sf rn rd rotate imm8 s
  | .orrShiftImm c sf rn rd shiftImm sh rm => Sys2Proof.Machine.execOrrShiftImm c sf rn rd shiftImm sh rm s
  | .orrShiftReg c sf rn rd rs sh rm => Sys2Proof.Machine.execOrrShiftReg c sf rn rd rs sh rm s
  | .movImm c sf rd rotate imm8 => Sys2Proof.Machine.execMovImm c sf rd rotate imm8 s
  | .movShiftImm c sf rd shiftImm sh rm => Sys2Proof.Machine.execMovShiftImm c sf rd shiftImm sh rm s
  | .movShiftReg c sf rd rs sh rm => Sys2Proof.Machine.execMovShiftReg c sf rd rs sh rm s
  | .bicImm c sf rn rd rotate imm8 => Sys2Proof.Machine.execBicImm c sf rn rd rotate imm8 s
  | .bicShiftImm c sf rn rd shiftImm sh rm => Sys2Proof.Machine.execBicShiftImm c sf rn rd shiftImm sh rm s
  | .bicShiftReg c sf rn rd rs sh rm => Sys2Proof.Machine.execBicShiftReg c sf rn rd rs sh rm s
  | .mvnImm c sf rd rotate imm8 => Sys2Proof.Machine.execMvnImm c sf rd rotate imm8 s
  | .mvnShiftImm c sf rd shiftImm sh rm => Sys2Proof.Machine.execMvnShiftImm c sf rd shiftImm sh rm s
  | .mvnShiftReg c sf rd rs sh rm => Sys2Proof.Machine.execMvnShiftReg c sf rd rs sh rm s
  | .mul c sf rd rs rm => Sys2Proof.Machine.execMul c sf rd rs rm s
  | .mla c sf rd rn rs rm => Sys2Proof.Machine.execMla c sf rd rn rs rm s
  | .umull c sf rdHi rdLo rs rm => Sys2Proof.Machine.execUmull c sf rdHi rdLo rs rm s
  | .umlal c sf rdHi rdLo rs rm => Sys2Proof.Machine.execUmlal c sf rdHi rdLo rs rm s
  | .smull c sf rdHi rdLo rs rm => Sys2Proof.Machine.execSmull c sf rdHi rdLo rs rm s
  | .smlal c sf rdHi rdLo rs rm => Sys2Proof.Machine.execSmlal c sf rdHi rdLo rs rm s
  | .b c imm24 => Sys2Proof.Machine.execB c imm24 s
  | .bl c imm24 => Sys2Proof.Machine.execBl c imm24 s
  | .bx c rm => Sys2Proof.Machine.execBx c rm s
  | .blxReg c rm => Sys2Proof.Machine.execBlxReg c rm s
  | .blxLabel h imm24 => Sys2Proof.Machine.execBlxLabel h imm24 s
  | .mrs c psr rd => Sys2Proof.Machine.execMrs c psr rd s
  | .msrImm c psr fieldMask rotate imm8 => Sys2Proof.Machine.execMsrImm c psr fieldMask rotate imm8 s
  | .msrReg c psr fieldMask rm => Sys2Proof.Machine.execMsrReg c psr fieldMask rm s
  | .ldrImmPre c u w rn rd imm12 => Sys2Proof.Machine.execLdrImmPre c u w rn rd imm12 s
  | .ldrImmPost c u rn rd imm12 => Sys2Proof.Machine.execLdrImmPost c u rn rd imm12 s
  | .ldrRegPre c u w rn rd shiftImm sh rm => Sys2Proof.Machine.execLdrRegPre c u w rn rd shiftImm sh rm s
  | .ldrRegPost c u rn rd shiftImm sh rm => Sys2Proof.Machine.execLdrRegPost c u rn rd shiftImm sh rm s
  | .strImmPre c u w rn rd imm12 => Sys2Proof.Machine.execStrImmPre c u w rn rd imm12 s
  | .strImmPost c u rn rd imm12 => Sys2Proof.Machine.execStrImmPost c u rn rd imm12 s
  | .strRegPre c u w rn rd shiftImm sh rm => Sys2Proof.Machine.execStrRegPre c u w rn rd shiftImm sh rm s
  | .strRegPost c u rn rd shiftImm sh rm => Sys2Proof.Machine.execStrRegPost c u rn rd shiftImm sh rm s
  | .ldrbImmPre c u w rn rd imm12 => Sys2Proof.Machine.execLdrbImmPre c u w rn rd imm12 s
  | .ldrbImmPost c u rn rd imm12 => Sys2Proof.Machine.execLdrbImmPost c u rn rd imm12 s
  | .ldrbRegPre c u w rn rd shiftImm sh rm => Sys2Proof.Machine.execLdrbRegPre c u w rn rd shiftImm sh rm s
  | .ldrbRegPost c u rn rd shiftImm sh rm => Sys2Proof.Machine.execLdrbRegPost c u rn rd shiftImm sh rm s
  | .strbImmPre c u w rn rd imm12 => Sys2Proof.Machine.execStrbImmPre c u w rn rd imm12 s
  | .strbImmPost c u rn rd imm12 => Sys2Proof.Machine.execStrbImmPost c u rn rd imm12 s
  | .strbRegPre c u w rn rd shiftImm sh rm => Sys2Proof.Machine.execStrbRegPre c u w rn rd shiftImm sh rm s
  | .strbRegPost c u rn rd shiftImm sh rm => Sys2Proof.Machine.execStrbRegPost c u rn rd shiftImm sh rm s
  | .ldrtImm c u rn rd imm12 => Sys2Proof.Machine.execLdrtImm c u rn rd imm12 s
  | .ldrtReg c u rn rd shiftImm sh rm => Sys2Proof.Machine.execLdrtReg c u rn rd shiftImm sh rm s
  | .strtImm c u rn rd imm12 => Sys2Proof.Machine.execStrtImm c u rn rd imm12 s
  | .strtReg c u rn rd shiftImm sh rm => Sys2Proof.Machine.execStrtReg c u rn rd shiftImm sh rm s
  | .ldrbtImm c u rn rd imm12 => Sys2Proof.Machine.execLdrbtImm c u rn rd imm12 s
  | .ldrbtReg c u rn rd shiftImm sh rm => Sys2Proof.Machine.execLdrbtReg c u rn rd shiftImm sh rm s
  | .strbtImm c u rn rd imm12 => Sys2Proof.Machine.execStrbtImm c u rn rd imm12 s
  | .strbtReg c u rn rd shiftImm sh rm => Sys2Proof.Machine.execStrbtReg c u rn rd shiftImm sh rm s
  | .ldrhImmPre c u w rn rd immH immL => Sys2Proof.Machine.execLdrhImmPre c u w rn rd immH immL s
  | .ldrhImmPost c u rn rd immH immL => Sys2Proof.Machine.execLdrhImmPost c u rn rd immH immL s
  | .ldrhRegPre c u w rn rd rm => Sys2Proof.Machine.execLdrhRegPre c u w rn rd rm s
  | .ldrhRegPost c u rn rd rm => Sys2Proof.Machine.execLdrhRegPost c u rn rd rm s
  | .strhImmPre c u w rn rd immH immL => Sys2Proof.Machine.execStrhImmPre c u w rn rd immH immL s
  | .strhImmPost c u rn rd immH immL => Sys2Proof.Machine.execStrhImmPost c u rn rd immH immL s
  | .strhRegPre c u w rn rd rm => Sys2Proof.Machine.execStrhRegPre c u w rn rd rm s
  | .strhRegPost c u rn rd rm => Sys2Proof.Machine.execStrhRegPost c u rn rd rm s
  | .ldrsbImmPre c u w rn rd immH immL => Sys2Proof.Machine.execLdrsbImmPre c u w rn rd immH immL s
  | .ldrsbImmPost c u rn rd immH immL => Sys2Proof.Machine.execLdrsbImmPost c u rn rd immH immL s
  | .ldrsbRegPre c u w rn rd rm => Sys2Proof.Machine.execLdrsbRegPre c u w rn rd rm s
  | .ldrsbRegPost c u rn rd rm => Sys2Proof.Machine.execLdrsbRegPost c u rn rd rm s
  | .ldrshImmPre c u w rn rd immH immL => Sys2Proof.Machine.execLdrshImmPre c u w rn rd immH immL s
  | .ldrshImmPost c u rn rd immH immL => Sys2Proof.Machine.execLdrshImmPost c u rn rd immH immL s
  | .ldrshRegPre c u w rn rd rm => Sys2Proof.Machine.execLdrshRegPre c u w rn rd rm s
  | .ldrshRegPost c u rn rd rm => Sys2Proof.Machine.execLdrshRegPost c u rn rd rm s
  | .undefined c hi lo => Sys2Proof.Machine.execUndefined c hi lo s

end Sys2Proof.Machine
end

