-- ==== Sys2Proof/Machine/Fetch.lean ====
section
/-!
DEFINITION. The instruction boundary, the fetch and the load of a program (spec
00_scope.md rule R16, 20_memory.md rule R72, 60_exceptions.md rules R335, R346,
70_reset_and_hazards.md rule R389).
-/

namespace Sys2Proof.Machine

/-! ## The boundary (rules R339, R346) -/

/-- Whether FIQ_LINE is asserted at this boundary (rule R344). -/
def State.fiqAsserted (s : State) : Bool := s.platform.fiqAt.contains s.boundary

/-- Whether IRQ_LINE is asserted at this boundary (rule R344). -/
def State.irqAsserted (s : State) : Bool := s.platform.irqAt.contains s.boundary

/-- The interrupt taken at this boundary: FIQ is looked at before IRQ (rule R346). -/
def pendingInterrupt (s : State) : Option ExceptionKind :=
  if s.fiqAsserted = true ∧ s.cpsr.f = false then some .fiq
  else if s.irqAsserted = true ∧ s.cpsr.i = false then some .irq
  else none

/-! ## The fetch (rule R72) -/

/-- What becomes of a fetch. -/
inductive Fetched where
  /-- The word. -/
  | word (w : Word)
  /-- A Prefetch Abort (rule R335). -/
  | abort
  /-- The address is not admitted for fetch (rule R68). -/
  | stuck (f : Fault)
  deriving DecidableEq, Repr

/-- `Fetch(pc)`: ABORT, then MEM_MAP, then the word (rules R64, R72). -/
def fetch (s : State) : Fetched :=
  if s.platform.abortsAt .fetch s.pc = true then .abort
  else if (Width.word.addresses s.pc).all (s.platform.admits .fetch) = true then
    .word (s.readWord s.pc)
  else .stuck (.notInMemoryMap .fetch s.pc)

/-- The refusal of a word the decoder rejects (rules R112, R114). -/
def refusalOf (e : DecodeError) : Refusal :=
  match e with
  | .truncated => .encodingNotInScope
  | .notInScope => .encodingNotInScope
  | .cond1111 => .cond1111

/-- A word executed: decoded, then its meaning (rule R16). -/
def executeWord (w : Word) (s : State) : Result :=
  match decode w with
  | .ok i => exec i s
  | .error e => .refused (refusalOf e)

/-- The instruction at the pc fetched and executed; Thumb state is refused at the
fetch (rules R16, R37, R335). -/
def executeNext (s : State) : Result :=
  if s.cpsr.t = true then .refused .thumbState
  else
    match fetch s with
    | .abort => .next (takeException .prefetchAbort s)
    | .stuck f => .fault f
    | .word w => executeWord w s

/-- The next boundary (rule R388). -/
def nextBoundary (r : Result) : Result :=
  match r with
  | .next s => .next { s with boundary := s.boundary + 1 }
  | .fault f => .fault f
  | .refused r => .refused r

/-- One step: the end of the run, else an interrupt, else the instruction (rules R16,
R346, R389; log 12, log 13). -/
def cycle (s : State) : Result :=
  if s.platform.haltAddr = some s.pc then .fault .runEnded
  else
    match pendingInterrupt s with
    | some k => nextBoundary (.next (takeException k s))
    | none => nextBoundary (executeNext s)

/-! ## Loading a program (rules R44, R72; log 6) -/

/-- The bytes of a list of words, each in its byte order (rule R64). -/
def bytesOfWords (ws : List Word) : List Byte :=
  match ws with
  | [] => []
  | w :: rest => bytesOfWord w ++ bytesOfWords rest

/-- A program placed in memory from outside the machine: its bytes from `base` on, and
those addresses admitted for fetch. -/
def State.loadProgram (s : State) (base : Word) (ws : List Word) : State :=
  let t := s.writeBytes base (bytesOfWords ws)
  { t with
    platform := { t.platform with
      memMap := { base := base.toNat, size := 4 * ws.length
                  fetch := true, read := false, write := false } :: t.platform.memMap } }

/-- The instruction whose bits are `w` (its bits above `nbits` zero) loaded at the pc. -/
def State.placeWord (s : State) (nbits w : Nat) : State :=
  s.loadProgram s.pc [BitVec.ofNat 32 (w % 2 ^ nbits)]

end Sys2Proof.Machine
end

