-- ==== Sys2Proof/Machine/Step.lean ====
section
/-!
DEFINITION. The step, and the word the host places for it (log 6).
-/

namespace Sys2Proof.Machine

/-- One step of the machine (Machine/Fetch.lean). -/
def step (s : State) : Host.Outcome State Fault Refusal := cycle s

/-- The state with one instruction loaded where the step fetches its next one. -/
def State.withFetchWord (s : State) (nbits w : Nat) : State := s.placeWord nbits w

end Sys2Proof.Machine
end

