-- ==== Sys2Proof/Safety.lean ====
section
/-!
DEFINITION. What counts as a safe run, in the terms of claims: the invariant of the
machine, and runs that stop at no fault but the end and at no refusal (spec
00_scope.md rule R14, 70_reset_and_hazards.md rule R389).
-/

namespace Sys2Proof.Machine

/-- What every step keeps: memory is in its canonical form, and in ARM state the pc is
word aligned (rules R26, R67; the form is the model's, log 4). -/
def State.Inv (s : State) : Prop :=
  Memory.wf s.mem = true ∧ (s.cpsr.t = false → s.pc.extractLsb' 0 2 = 0)

/-- The states of a run from `s`: each is a step after the one before (rule R389). -/
inductive Reaches : State → State → Prop where
  /-- A run of no step. -/
  | refl (s : State) : Reaches s s
  /-- One step more. -/
  | step {s t u : State} (run : Reaches s t) (last : step t = .next u) : Reaches s u

/-- The run has ended: the state is final (rule R389). -/
def State.Final (s : State) : Prop := step s = .fault .runEnded

/-- A state from which the machine neither is stuck nor is refused (rule R14). -/
def State.SafeHere (s : State) : Prop := s.Final ∨ ∃ t, step s = .next t

/-- No run from here is stuck or refused. -/
def State.Safe (s : State) : Prop := ∀ t, Reaches s t → t.SafeHere

end Sys2Proof.Machine
end

