-- ==== Sys2Proof/Claims.lean ====
section
/-!
DEFINITION. The vocabulary of the statements (Certificates/Slice0/Obligations.lean): the
instructions by their shape, the results and flags as the spec's rules write them (not as
the machine computes them), and what an instruction leaves unchanged.
-/

namespace Sys2Proof.Machine

/-! ## Instructions by their shape -/

/-- The condition an instruction carries; BLX label carries none (rules R130, R152). -/
def conditionOf (i : Instr) : Option Cond :=
  match i with
  | .andImm c _ _ _ _ _
  | .andShiftImm c _ _ _ _ _ _
  | .andShiftReg c _ _ _ _ _ _
  | .eorImm c _ _ _ _ _
  | .eorShiftImm c _ _ _ _ _ _
  | .eorShiftReg c _ _ _ _ _ _
  | .subImm c _ _ _ _ _
  | .subShiftImm c _ _ _ _ _ _
  | .subShiftReg c _ _ _ _ _ _
  | .rsbImm c _ _ _ _ _
  | .rsbShiftImm c _ _ _ _ _ _
  | .rsbShiftReg c _ _ _ _ _ _
  | .addImm c _ _ _ _ _
  | .addShiftImm c _ _ _ _ _ _
  | .addShiftReg c _ _ _ _ _ _
  | .adcImm c _ _ _ _ _
  | .adcShiftImm c _ _ _ _ _ _
  | .adcShiftReg c _ _ _ _ _ _
  | .sbcImm c _ _ _ _ _
  | .sbcShiftImm c _ _ _ _ _ _
  | .sbcShiftReg c _ _ _ _ _ _
  | .rscImm c _ _ _ _ _
  | .rscShiftImm c _ _ _ _ _ _
  | .rscShiftReg c _ _ _ _ _ _
  | .tstImm c _ _ _
  | .tstShiftImm c _ _ _ _
  | .tstShiftReg c _ _ _ _
  | .teqImm c _ _ _
  | .teqShiftImm c _ _ _ _
  | .teqShiftReg c _ _ _ _
  | .cmpImm c _ _ _
  | .cmpShiftImm c _ _ _ _
  | .cmpShiftReg c _ _ _ _
  | .cmnImm c _ _ _
  | .cmnShiftImm c _ _ _ _
  | .cmnShiftReg c _ _ _ _
  | .orrImm c _ _ _ _ _
  | .orrShiftImm c _ _ _ _ _ _
  | .orrShiftReg c _ _ _ _ _ _
  | .movImm c _ _ _ _
  | .movShiftImm c _ _ _ _ _
  | .movShiftReg c _ _ _ _ _
  | .bicImm c _ _ _ _ _
  | .bicShiftImm c _ _ _ _ _ _
  | .bicShiftReg c _ _ _ _ _ _
  | .mvnImm c _ _ _ _
  | .mvnShiftImm c _ _ _ _ _
  | .mvnShiftReg c _ _ _ _ _
  | .mul c _ _ _ _
  | .mla c _ _ _ _ _
  | .umull c _ _ _ _ _
  | .umlal c _ _ _ _ _
  | .smull c _ _ _ _ _
  | .smlal c _ _ _ _ _
  | .b c _
  | .bl c _
  | .bx c _
  | .blxReg c _
  | .mrs c _ _
  | .msrImm c _ _ _ _
  | .msrReg c _ _ _
  | .ldrImmPre c _ _ _ _ _
  | .ldrImmPost c _ _ _ _
  | .ldrRegPre c _ _ _ _ _ _ _
  | .ldrRegPost c _ _ _ _ _ _
  | .strImmPre c _ _ _ _ _
  | .strImmPost c _ _ _ _
  | .strRegPre c _ _ _ _ _ _ _
  | .strRegPost c _ _ _ _ _ _
  | .ldrbImmPre c _ _ _ _ _
  | .ldrbImmPost c _ _ _ _
  | .ldrbRegPre c _ _ _ _ _ _ _
  | .ldrbRegPost c _ _ _ _ _ _
  | .strbImmPre c _ _ _ _ _
  | .strbImmPost c _ _ _ _
  | .strbRegPre c _ _ _ _ _ _ _
  | .strbRegPost c _ _ _ _ _ _
  | .ldrtImm c _ _ _ _
  | .ldrtReg c _ _ _ _ _ _
  | .strtImm c _ _ _ _
  | .strtReg c _ _ _ _ _ _
  | .ldrbtImm c _ _ _ _
  | .ldrbtReg c _ _ _ _ _ _
  | .strbtImm c _ _ _ _
  | .strbtReg c _ _ _ _ _ _
  | .ldrhImmPre c _ _ _ _ _ _
  | .ldrhImmPost c _ _ _ _ _
  | .ldrhRegPre c _ _ _ _ _
  | .ldrhRegPost c _ _ _ _
  | .strhImmPre c _ _ _ _ _ _
  | .strhImmPost c _ _ _ _ _
  | .strhRegPre c _ _ _ _ _
  | .strhRegPost c _ _ _ _
  | .ldrsbImmPre c _ _ _ _ _ _
  | .ldrsbImmPost c _ _ _ _ _
  | .ldrsbRegPre c _ _ _ _ _
  | .ldrsbRegPost c _ _ _ _
  | .ldrshImmPre c _ _ _ _ _ _
  | .ldrshImmPost c _ _ _ _ _
  | .ldrshRegPre c _ _ _ _ _
  | .ldrshRegPost c _ _ _ _
  | .undefined c _ _ => some c
  | .blxLabel _ _ => none

/-- A data-processing instruction: its operation, fields and Operand2 (rule R200). A
field its type does not have is 0, and S is 1 in type 2. -/
structure DpView where
  /-- The operation. -/
  op : DpOp
  /-- The condition. -/
  c : Cond
  /-- S. -/
  sf : Bool
  /-- The first operand register. -/
  rn : Reg
  /-- The destination. -/
  rd : Reg
  /-- Operand2. -/
  operand : Operand2
  deriving DecidableEq, Repr

/-- The 48 data-processing instructions (rule R200). -/
def dpView (i : Instr) : Option DpView :=
  match i with
  | .andImm c sf rn rd rotate imm8 => some ⟨.and, c, sf, rn, rd, .imm rotate imm8⟩
  | .andShiftImm c sf rn rd shiftImm sh rm => some ⟨.and, c, sf, rn, rd, .shiftImm shiftImm sh rm⟩
  | .andShiftReg c sf rn rd rs sh rm => some ⟨.and, c, sf, rn, rd, .shiftReg rs sh rm⟩
  | .eorImm c sf rn rd rotate imm8 => some ⟨.eor, c, sf, rn, rd, .imm rotate imm8⟩
  | .eorShiftImm c sf rn rd shiftImm sh rm => some ⟨.eor, c, sf, rn, rd, .shiftImm shiftImm sh rm⟩
  | .eorShiftReg c sf rn rd rs sh rm => some ⟨.eor, c, sf, rn, rd, .shiftReg rs sh rm⟩
  | .subImm c sf rn rd rotate imm8 => some ⟨.sub, c, sf, rn, rd, .imm rotate imm8⟩
  | .subShiftImm c sf rn rd shiftImm sh rm => some ⟨.sub, c, sf, rn, rd, .shiftImm shiftImm sh rm⟩
  | .subShiftReg c sf rn rd rs sh rm => some ⟨.sub, c, sf, rn, rd, .shiftReg rs sh rm⟩
  | .rsbImm c sf rn rd rotate imm8 => some ⟨.rsb, c, sf, rn, rd, .imm rotate imm8⟩
  | .rsbShiftImm c sf rn rd shiftImm sh rm => some ⟨.rsb, c, sf, rn, rd, .shiftImm shiftImm sh rm⟩
  | .rsbShiftReg c sf rn rd rs sh rm => some ⟨.rsb, c, sf, rn, rd, .shiftReg rs sh rm⟩
  | .addImm c sf rn rd rotate imm8 => some ⟨.add, c, sf, rn, rd, .imm rotate imm8⟩
  | .addShiftImm c sf rn rd shiftImm sh rm => some ⟨.add, c, sf, rn, rd, .shiftImm shiftImm sh rm⟩
  | .addShiftReg c sf rn rd rs sh rm => some ⟨.add, c, sf, rn, rd, .shiftReg rs sh rm⟩
  | .adcImm c sf rn rd rotate imm8 => some ⟨.adc, c, sf, rn, rd, .imm rotate imm8⟩
  | .adcShiftImm c sf rn rd shiftImm sh rm => some ⟨.adc, c, sf, rn, rd, .shiftImm shiftImm sh rm⟩
  | .adcShiftReg c sf rn rd rs sh rm => some ⟨.adc, c, sf, rn, rd, .shiftReg rs sh rm⟩
  | .sbcImm c sf rn rd rotate imm8 => some ⟨.sbc, c, sf, rn, rd, .imm rotate imm8⟩
  | .sbcShiftImm c sf rn rd shiftImm sh rm => some ⟨.sbc, c, sf, rn, rd, .shiftImm shiftImm sh rm⟩
  | .sbcShiftReg c sf rn rd rs sh rm => some ⟨.sbc, c, sf, rn, rd, .shiftReg rs sh rm⟩
  | .rscImm c sf rn rd rotate imm8 => some ⟨.rsc, c, sf, rn, rd, .imm rotate imm8⟩
  | .rscShiftImm c sf rn rd shiftImm sh rm => some ⟨.rsc, c, sf, rn, rd, .shiftImm shiftImm sh rm⟩
  | .rscShiftReg c sf rn rd rs sh rm => some ⟨.rsc, c, sf, rn, rd, .shiftReg rs sh rm⟩
  | .tstImm c rn rotate imm8 => some ⟨.tst, c, true, rn, 0, .imm rotate imm8⟩
  | .tstShiftImm c rn shiftImm sh rm => some ⟨.tst, c, true, rn, 0, .shiftImm shiftImm sh rm⟩
  | .tstShiftReg c rn rs sh rm => some ⟨.tst, c, true, rn, 0, .shiftReg rs sh rm⟩
  | .teqImm c rn rotate imm8 => some ⟨.teq, c, true, rn, 0, .imm rotate imm8⟩
  | .teqShiftImm c rn shiftImm sh rm => some ⟨.teq, c, true, rn, 0, .shiftImm shiftImm sh rm⟩
  | .teqShiftReg c rn rs sh rm => some ⟨.teq, c, true, rn, 0, .shiftReg rs sh rm⟩
  | .cmpImm c rn rotate imm8 => some ⟨.cmp, c, true, rn, 0, .imm rotate imm8⟩
  | .cmpShiftImm c rn shiftImm sh rm => some ⟨.cmp, c, true, rn, 0, .shiftImm shiftImm sh rm⟩
  | .cmpShiftReg c rn rs sh rm => some ⟨.cmp, c, true, rn, 0, .shiftReg rs sh rm⟩
  | .cmnImm c rn rotate imm8 => some ⟨.cmn, c, true, rn, 0, .imm rotate imm8⟩
  | .cmnShiftImm c rn shiftImm sh rm => some ⟨.cmn, c, true, rn, 0, .shiftImm shiftImm sh rm⟩
  | .cmnShiftReg c rn rs sh rm => some ⟨.cmn, c, true, rn, 0, .shiftReg rs sh rm⟩
  | .orrImm c sf rn rd rotate imm8 => some ⟨.orr, c, sf, rn, rd, .imm rotate imm8⟩
  | .orrShiftImm c sf rn rd shiftImm sh rm => some ⟨.orr, c, sf, rn, rd, .shiftImm shiftImm sh rm⟩
  | .orrShiftReg c sf rn rd rs sh rm => some ⟨.orr, c, sf, rn, rd, .shiftReg rs sh rm⟩
  | .movImm c sf rd rotate imm8 => some ⟨.mov, c, sf, 0, rd, .imm rotate imm8⟩
  | .movShiftImm c sf rd shiftImm sh rm => some ⟨.mov, c, sf, 0, rd, .shiftImm shiftImm sh rm⟩
  | .movShiftReg c sf rd rs sh rm => some ⟨.mov, c, sf, 0, rd, .shiftReg rs sh rm⟩
  | .bicImm c sf rn rd rotate imm8 => some ⟨.bic, c, sf, rn, rd, .imm rotate imm8⟩
  | .bicShiftImm c sf rn rd shiftImm sh rm => some ⟨.bic, c, sf, rn, rd, .shiftImm shiftImm sh rm⟩
  | .bicShiftReg c sf rn rd rs sh rm => some ⟨.bic, c, sf, rn, rd, .shiftReg rs sh rm⟩
  | .mvnImm c sf rd rotate imm8 => some ⟨.mvn, c, sf, 0, rd, .imm rotate imm8⟩
  | .mvnShiftImm c sf rd shiftImm sh rm => some ⟨.mvn, c, sf, 0, rd, .shiftImm shiftImm sh rm⟩
  | .mvnShiftReg c sf rd rs sh rm => some ⟨.mvn, c, sf, 0, rd, .shiftReg rs sh rm⟩
  | .mul _ _ _ _ _
  | .mla _ _ _ _ _ _
  | .umull _ _ _ _ _ _
  | .umlal _ _ _ _ _ _
  | .smull _ _ _ _ _ _
  | .smlal _ _ _ _ _ _
  | .b _ _
  | .bl _ _
  | .bx _ _
  | .blxReg _ _
  | .blxLabel _ _
  | .mrs _ _ _
  | .msrImm _ _ _ _ _
  | .msrReg _ _ _ _
  | .ldrImmPre _ _ _ _ _ _
  | .ldrImmPost _ _ _ _ _
  | .ldrRegPre _ _ _ _ _ _ _ _
  | .ldrRegPost _ _ _ _ _ _ _
  | .strImmPre _ _ _ _ _ _
  | .strImmPost _ _ _ _ _
  | .strRegPre _ _ _ _ _ _ _ _
  | .strRegPost _ _ _ _ _ _ _
  | .ldrbImmPre _ _ _ _ _ _
  | .ldrbImmPost _ _ _ _ _
  | .ldrbRegPre _ _ _ _ _ _ _ _
  | .ldrbRegPost _ _ _ _ _ _ _
  | .strbImmPre _ _ _ _ _ _
  | .strbImmPost _ _ _ _ _
  | .strbRegPre _ _ _ _ _ _ _ _
  | .strbRegPost _ _ _ _ _ _ _
  | .ldrtImm _ _ _ _ _
  | .ldrtReg _ _ _ _ _ _ _
  | .strtImm _ _ _ _ _
  | .strtReg _ _ _ _ _ _ _
  | .ldrbtImm _ _ _ _ _
  | .ldrbtReg _ _ _ _ _ _ _
  | .strbtImm _ _ _ _ _
  | .strbtReg _ _ _ _ _ _ _
  | .ldrhImmPre _ _ _ _ _ _ _
  | .ldrhImmPost _ _ _ _ _ _
  | .ldrhRegPre _ _ _ _ _ _
  | .ldrhRegPost _ _ _ _ _
  | .strhImmPre _ _ _ _ _ _ _
  | .strhImmPost _ _ _ _ _ _
  | .strhRegPre _ _ _ _ _ _
  | .strhRegPost _ _ _ _ _
  | .ldrsbImmPre _ _ _ _ _ _ _
  | .ldrsbImmPost _ _ _ _ _ _
  | .ldrsbRegPre _ _ _ _ _ _
  | .ldrsbRegPost _ _ _ _ _
  | .ldrshImmPre _ _ _ _ _ _ _
  | .ldrshImmPost _ _ _ _ _ _
  | .ldrshRegPre _ _ _ _ _ _
  | .ldrshRegPost _ _ _ _ _
  | .undefined _ _ _ => none

/-- A single data transfer (rules R290 to R305). -/
structure TransferView where
  /-- A load, else a store. -/
  load : Bool
  /-- The width of the access. -/
  width : Width
  /-- Whether a load sign-extends. -/
  signed : Bool
  /-- The condition. -/
  c : Cond
  /-- The address and the write-back. -/
  am : Addressing
  /-- The register loaded or stored. -/
  rd : Reg
  /-- What Rd = R15 breaks (rule R306); nothing for LDR. -/
  rd15 : Option Restriction
  deriving DecidableEq, Repr

/-- The 40 single data transfers. -/
def transferView (i : Instr) : Option TransferView :=
  match i with
  | .ldrImmPre c u w rn rd imm12 =>
    some ⟨true, .word, false, c, preIndexed u w rn (offset12 imm12), rd, none⟩
  | .ldrImmPost c u rn rd imm12 =>
    some ⟨true, .word, false, c, postIndexed u rn (offset12 imm12), rd, none⟩
  | .ldrRegPre c u w rn rd shiftImm sh rm =>
    some ⟨true, .word, false, c, preIndexed u w rn (.shifted shiftImm sh rm), rd, none⟩
  | .ldrRegPost c u rn rd shiftImm sh rm =>
    some ⟨true, .word, false, c, postIndexed u rn (.shifted shiftImm sh rm), rd, none⟩
  | .strImmPre c u w rn rd imm12 =>
    some ⟨false, .word, false, c, preIndexed u w rn (offset12 imm12), rd, some .storeR15⟩
  | .strImmPost c u rn rd imm12 =>
    some ⟨false, .word, false, c, postIndexed u rn (offset12 imm12), rd, some .storeR15⟩
  | .strRegPre c u w rn rd shiftImm sh rm =>
    some ⟨false, .word, false, c, preIndexed u w rn (.shifted shiftImm sh rm), rd, some .storeR15⟩
  | .strRegPost c u rn rd shiftImm sh rm =>
    some ⟨false, .word, false, c, postIndexed u rn (.shifted shiftImm sh rm), rd, some .storeR15⟩
  | .ldrbImmPre c u w rn rd imm12 =>
    some ⟨true, .byte, false, c, preIndexed u w rn (offset12 imm12), rd, some .transferR15⟩
  | .ldrbImmPost c u rn rd imm12 =>
    some ⟨true, .byte, false, c, postIndexed u rn (offset12 imm12), rd, some .transferR15⟩
  | .ldrbRegPre c u w rn rd shiftImm sh rm =>
    some ⟨true, .byte, false, c, preIndexed u w rn (.shifted shiftImm sh rm), rd, some .transferR15⟩
  | .ldrbRegPost c u rn rd shiftImm sh rm =>
    some ⟨true, .byte, false, c, postIndexed u rn (.shifted shiftImm sh rm), rd, some .transferR15⟩
  | .strbImmPre c u w rn rd imm12 =>
    some ⟨false, .byte, false, c, preIndexed u w rn (offset12 imm12), rd, some .transferR15⟩
  | .strbImmPost c u rn rd imm12 =>
    some ⟨false, .byte, false, c, postIndexed u rn (offset12 imm12), rd, some .transferR15⟩
  | .strbRegPre c u w rn rd shiftImm sh rm =>
    some ⟨false, .byte, false, c, preIndexed u w rn (.shifted shiftImm sh rm), rd, some .transferR15⟩
  | .strbRegPost c u rn rd shiftImm sh rm =>
    some ⟨false, .byte, false, c, postIndexed u rn (.shifted shiftImm sh rm), rd, some .transferR15⟩
  | .ldrtImm c u rn rd imm12 =>
    some ⟨true, .word, false, c, postIndexed u rn (offset12 imm12), rd, some .transferR15⟩
  | .ldrtReg c u rn rd shiftImm sh rm =>
    some ⟨true, .word, false, c, postIndexed u rn (.shifted shiftImm sh rm), rd, some .transferR15⟩
  | .strtImm c u rn rd imm12 =>
    some ⟨false, .word, false, c, postIndexed u rn (offset12 imm12), rd, some .transferR15⟩
  | .strtReg c u rn rd shiftImm sh rm =>
    some ⟨false, .word, false, c, postIndexed u rn (.shifted shiftImm sh rm), rd, some .transferR15⟩
  | .ldrbtImm c u rn rd imm12 =>
    some ⟨true, .byte, false, c, postIndexed u rn (offset12 imm12), rd, some .transferR15⟩
  | .ldrbtReg c u rn rd shiftImm sh rm =>
    some ⟨true, .byte, false, c, postIndexed u rn (.shifted shiftImm sh rm), rd, some .transferR15⟩
  | .strbtImm c u rn rd imm12 =>
    some ⟨false, .byte, false, c, postIndexed u rn (offset12 imm12), rd, some .transferR15⟩
  | .strbtReg c u rn rd shiftImm sh rm =>
    some ⟨false, .byte, false, c, postIndexed u rn (.shifted shiftImm sh rm), rd, some .transferR15⟩
  | .ldrhImmPre c u w rn rd immH immL =>
    some ⟨true, .half, false, c, preIndexed u w rn (offset8 immH immL), rd, some .transferR15⟩
  | .ldrhImmPost c u rn rd immH immL =>
    some ⟨true, .half, false, c, postIndexed u rn (offset8 immH immL), rd, some .transferR15⟩
  | .ldrhRegPre c u w rn rd rm =>
    some ⟨true, .half, false, c, preIndexed u w rn (.reg rm), rd, some .transferR15⟩
  | .ldrhRegPost c u rn rd rm =>
    some ⟨true, .half, false, c, postIndexed u rn (.reg rm), rd, some .transferR15⟩
  | .strhImmPre c u w rn rd immH immL =>
    some ⟨false, .half, false, c, preIndexed u w rn (offset8 immH immL), rd, some .transferR15⟩
  | .strhImmPost c u rn rd immH immL =>
    some ⟨false, .half, false, c, postIndexed u rn (offset8 immH immL), rd, some .transferR15⟩
  | .strhRegPre c u w rn rd rm =>
    some ⟨false, .half, false, c, preIndexed u w rn (.reg rm), rd, some .transferR15⟩
  | .strhRegPost c u rn rd rm =>
    some ⟨false, .half, false, c, postIndexed u rn (.reg rm), rd, some .transferR15⟩
  | .ldrsbImmPre c u w rn rd immH immL =>
    some ⟨true, .byte, true, c, preIndexed u w rn (offset8 immH immL), rd, some .transferR15⟩
  | .ldrsbImmPost c u rn rd immH immL =>
    some ⟨true, .byte, true, c, postIndexed u rn (offset8 immH immL), rd, some .transferR15⟩
  | .ldrsbRegPre c u w rn rd rm =>
    some ⟨true, .byte, true, c, preIndexed u w rn (.reg rm), rd, some .transferR15⟩
  | .ldrsbRegPost c u rn rd rm =>
    some ⟨true, .byte, true, c, postIndexed u rn (.reg rm), rd, some .transferR15⟩
  | .ldrshImmPre c u w rn rd immH immL =>
    some ⟨true, .half, true, c, preIndexed u w rn (offset8 immH immL), rd, some .transferR15⟩
  | .ldrshImmPost c u rn rd immH immL =>
    some ⟨true, .half, true, c, postIndexed u rn (offset8 immH immL), rd, some .transferR15⟩
  | .ldrshRegPre c u w rn rd rm =>
    some ⟨true, .half, true, c, preIndexed u w rn (.reg rm), rd, some .transferR15⟩
  | .ldrshRegPost c u rn rd rm =>
    some ⟨true, .half, true, c, postIndexed u rn (.reg rm), rd, some .transferR15⟩
  | .andImm _ _ _ _ _ _
  | .andShiftImm _ _ _ _ _ _ _
  | .andShiftReg _ _ _ _ _ _ _
  | .eorImm _ _ _ _ _ _
  | .eorShiftImm _ _ _ _ _ _ _
  | .eorShiftReg _ _ _ _ _ _ _
  | .subImm _ _ _ _ _ _
  | .subShiftImm _ _ _ _ _ _ _
  | .subShiftReg _ _ _ _ _ _ _
  | .rsbImm _ _ _ _ _ _
  | .rsbShiftImm _ _ _ _ _ _ _
  | .rsbShiftReg _ _ _ _ _ _ _
  | .addImm _ _ _ _ _ _
  | .addShiftImm _ _ _ _ _ _ _
  | .addShiftReg _ _ _ _ _ _ _
  | .adcImm _ _ _ _ _ _
  | .adcShiftImm _ _ _ _ _ _ _
  | .adcShiftReg _ _ _ _ _ _ _
  | .sbcImm _ _ _ _ _ _
  | .sbcShiftImm _ _ _ _ _ _ _
  | .sbcShiftReg _ _ _ _ _ _ _
  | .rscImm _ _ _ _ _ _
  | .rscShiftImm _ _ _ _ _ _ _
  | .rscShiftReg _ _ _ _ _ _ _
  | .tstImm _ _ _ _
  | .tstShiftImm _ _ _ _ _
  | .tstShiftReg _ _ _ _ _
  | .teqImm _ _ _ _
  | .teqShiftImm _ _ _ _ _
  | .teqShiftReg _ _ _ _ _
  | .cmpImm _ _ _ _
  | .cmpShiftImm _ _ _ _ _
  | .cmpShiftReg _ _ _ _ _
  | .cmnImm _ _ _ _
  | .cmnShiftImm _ _ _ _ _
  | .cmnShiftReg _ _ _ _ _
  | .orrImm _ _ _ _ _ _
  | .orrShiftImm _ _ _ _ _ _ _
  | .orrShiftReg _ _ _ _ _ _ _
  | .movImm _ _ _ _ _
  | .movShiftImm _ _ _ _ _ _
  | .movShiftReg _ _ _ _ _ _
  | .bicImm _ _ _ _ _ _
  | .bicShiftImm _ _ _ _ _ _ _
  | .bicShiftReg _ _ _ _ _ _ _
  | .mvnImm _ _ _ _ _
  | .mvnShiftImm _ _ _ _ _ _
  | .mvnShiftReg _ _ _ _ _ _
  | .mul _ _ _ _ _
  | .mla _ _ _ _ _ _
  | .umull _ _ _ _ _ _
  | .umlal _ _ _ _ _ _
  | .smull _ _ _ _ _ _
  | .smlal _ _ _ _ _ _
  | .b _ _
  | .bl _ _
  | .bx _ _
  | .blxReg _ _
  | .blxLabel _ _
  | .mrs _ _ _
  | .msrImm _ _ _ _ _
  | .msrReg _ _ _ _
  | .undefined _ _ _ => none

/-! ## The opcode table (rules R110 to R113)

Each row of spec/opcode_table.json but BLX label as its mask and its match; the words of a
row are the words with a condition that agree with the match on the bits of the mask. -/

/-- Data processing with an immediate (format of rule R93; R97 for the fixed fields). -/
def dpImmRows : List (Word × Word) := [
  (0x0FE00000, 0x02000000), (0x0FE00000, 0x02200000), (0x0FE00000, 0x02400000),
  (0x0FE00000, 0x02600000), (0x0FE00000, 0x02800000), (0x0FE00000, 0x02A00000),
  (0x0FE00000, 0x02C00000), (0x0FE00000, 0x02E00000), (0x0FF0F000, 0x03100000),
  (0x0FF0F000, 0x03300000), (0x0FF0F000, 0x03500000), (0x0FF0F000, 0x03700000),
  (0x0FE00000, 0x03800000), (0x0FEF0000, 0x03A00000), (0x0FE00000, 0x03C00000),
  (0x0FEF0000, 0x03E00000)]

/-- Data processing with an instruction-specified shift (rules R94, R97). -/
def dpShiftImmRows : List (Word × Word) := [
  (0x0FE00010, 0x00000000), (0x0FE00010, 0x00200000), (0x0FE00010, 0x00400000),
  (0x0FE00010, 0x00600000), (0x0FE00010, 0x00800000), (0x0FE00010, 0x00A00000),
  (0x0FE00010, 0x00C00000), (0x0FE00010, 0x00E00000), (0x0FF0F010, 0x01100000),
  (0x0FF0F010, 0x01300000), (0x0FF0F010, 0x01500000), (0x0FF0F010, 0x01700000),
  (0x0FE00010, 0x01800000), (0x0FEF0010, 0x01A00000), (0x0FE00010, 0x01C00000),
  (0x0FEF0010, 0x01E00000)]

/-- Data processing with a register-specified shift (rules R95, R97). -/
def dpShiftRegRows : List (Word × Word) := [
  (0x0FE00090, 0x00000010), (0x0FE00090, 0x00200010), (0x0FE00090, 0x00400010),
  (0x0FE00090, 0x00600010), (0x0FE00090, 0x00800010), (0x0FE00090, 0x00A00010),
  (0x0FE00090, 0x00C00010), (0x0FE00090, 0x00E00010), (0x0FF0F090, 0x01100010),
  (0x0FF0F090, 0x01300010), (0x0FF0F090, 0x01500010), (0x0FF0F090, 0x01700010),
  (0x0FE00090, 0x01800010), (0x0FEF0090, 0x01A00010), (0x0FE00090, 0x01C00010),
  (0x0FEF0090, 0x01E00010)]

/-- The multiplies (rules R98, R99). -/
def mulRows : List (Word × Word) := [
  (0x0FE0F0F0, 0x00000090), (0x0FE000F0, 0x00200090), (0x0FE000F0, 0x00800090),
  (0x0FE000F0, 0x00A00090), (0x0FE000F0, 0x00C00090), (0x0FE000F0, 0x00E00090)]

/-- LDR, STR, LDRB, STRB (rule R106). -/
def transferRows : List (Word × Word) := [
  (0x0F500000, 0x05100000), (0x0F700000, 0x04100000), (0x0F500010, 0x07100000),
  (0x0F700010, 0x06100000), (0x0F500000, 0x05000000), (0x0F700000, 0x04000000),
  (0x0F500010, 0x07000000), (0x0F700010, 0x06000000), (0x0F500000, 0x05500000),
  (0x0F700000, 0x04500000), (0x0F500010, 0x07500000), (0x0F700010, 0x06500000),
  (0x0F500000, 0x05400000), (0x0F700000, 0x04400000), (0x0F500010, 0x07400000),
  (0x0F700010, 0x06400000)]

/-- LDRT, STRT, LDRBT, STRBT (rule R106). -/
def userTransferRows : List (Word × Word) := [
  (0x0F700000, 0x04300000), (0x0F700010, 0x06300000), (0x0F700000, 0x04200000),
  (0x0F700010, 0x06200000), (0x0F700000, 0x04700000), (0x0F700010, 0x06700000),
  (0x0F700000, 0x04600000), (0x0F700010, 0x06600000)]

/-- LDRH, STRH, LDRSB, LDRSH (rule R107). -/
def halfRows : List (Word × Word) := [
  (0x0F5000F0, 0x015000B0), (0x0F7000F0, 0x005000B0), (0x0F500FF0, 0x011000B0),
  (0x0F700FF0, 0x001000B0), (0x0F5000F0, 0x014000B0), (0x0F7000F0, 0x004000B0),
  (0x0F500FF0, 0x010000B0), (0x0F700FF0, 0x000000B0), (0x0F5000F0, 0x015000D0),
  (0x0F7000F0, 0x005000D0), (0x0F500FF0, 0x011000D0), (0x0F700FF0, 0x001000D0),
  (0x0F5000F0, 0x015000F0), (0x0F7000F0, 0x005000F0), (0x0F500FF0, 0x011000F0),
  (0x0F700FF0, 0x001000F0)]

/-- B, BL, BX, BLX register, MRS, MSR, UNDEFINED (rules R100, R101, R103 to R105, R113). -/
def otherRows : List (Word × Word) := [
  (0x0F000000, 0x0A000000), (0x0F000000, 0x0B000000), (0x0FFFFFF0, 0x012FFF10),
  (0x0FFFFFF0, 0x012FFF30), (0x0FBF0FFF, 0x010F0000), (0x0FB0F000, 0x0320F000),
  (0x0FB0FFF0, 0x0120F000), (0x0E000010, 0x06000010)]

/-- The 102 rows that carry a condition. -/
def opcodeRows : List (Word × Word) :=
  dpImmRows ++ dpShiftImmRows ++ dpShiftRegRows ++ mulRows ++
    transferRows ++ userTransferRows ++ halfRows ++ otherRows

/-! ## The sixteen operations, as rules R204 to R219 write them -/

/-- C as a word. -/
def carryWord (c : Bool) : Word := if c = true then 1 else 0

/-- The result: `a` is Rn, `b` is Operand2, `c` the C flag before the instruction. -/
def dpValue (op : DpOp) (a b : Word) (c : Bool) : Word :=
  match op with
  | .and => a &&& b
  | .eor => a ^^^ b
  | .sub => a - b
  | .rsb => b - a
  | .add => a + b
  | .adc => a + b + carryWord c
  | .sbc => a - b + carryWord c - 1
  | .rsc => b - a + carryWord c - 1
  | .tst => a &&& b
  | .teq => a ^^^ b
  | .cmp => a - b
  | .cmn => a + b
  | .orr => a ||| b
  | .mov => b
  | .bic => a &&& ~~~b
  | .mvn => ~~~b

/-- The C flag with S: the shifter carry `sc`, or the carry out, or no borrow. -/
def dpCarry (op : DpOp) (a b : Word) (sc c : Bool) : Bool :=
  match op with
  | .and => sc
  | .eor => sc
  | .sub => decide (b.toNat ≤ a.toNat)
  | .rsb => decide (a.toNat ≤ b.toNat)
  | .add => decide (2 ^ 32 ≤ a.toNat + b.toNat)
  | .adc => decide (2 ^ 32 ≤ a.toNat + b.toNat + c.toNat)
  | .sbc => decide (b.toNat + (1 - c.toNat) ≤ a.toNat)
  | .rsc => decide (a.toNat + (1 - c.toNat) ≤ b.toNat)
  | .tst => sc
  | .teq => sc
  | .cmp => decide (b.toNat ≤ a.toNat)
  | .cmn => decide (2 ^ 32 ≤ a.toNat + b.toNat)
  | .orr => sc
  | .mov => sc
  | .bic => sc
  | .mvn => sc

/-- Outside -2^31 .. 2^31 - 1. -/
def signedOverflow (x : Int) : Bool := decide (x < -2 ^ 31 ∨ 2 ^ 31 ≤ x)

/-- The V flag with S: signed overflow, or `v` as before in the logical class. -/
def dpOverflow (op : DpOp) (a b : Word) (v c : Bool) : Bool :=
  match op with
  | .and => v
  | .eor => v
  | .sub => signedOverflow (a.toInt - b.toInt)
  | .rsb => signedOverflow (b.toInt - a.toInt)
  | .add => signedOverflow (a.toInt + b.toInt)
  | .adc => signedOverflow (a.toInt + b.toInt + c.toNat)
  | .sbc => signedOverflow (a.toInt - b.toInt - (1 - c.toNat))
  | .rsc => signedOverflow (b.toInt - a.toInt - (1 - c.toNat))
  | .tst => v
  | .teq => v
  | .cmp => signedOverflow (a.toInt - b.toInt)
  | .cmn => signedOverflow (a.toInt + b.toInt)
  | .orr => v
  | .mov => v
  | .bic => v
  | .mvn => v

/-- The result of a data-processing instruction in a state. -/
def DpView.result (d : DpView) (s : State) : Word :=
  dpValue d.op (s.readReg d.rn) (shifterOperand d.operand s).value s.cpsr.c

/-- The CPSR after it, with S: N and Z of the result, C and V as above, the rest as before. -/
def DpView.flags (d : DpView) (s : State) : Cpsr :=
  { s.cpsr with
    n := (d.result s).getLsbD 31
    z := decide (d.result s = 0)
    c := dpCarry d.op (s.readReg d.rn) (shifterOperand d.operand s).value
      (shifterOperand d.operand s).carry s.cpsr.c
    v := dpOverflow d.op (s.readReg d.rn) (shifterOperand d.operand s).value s.cpsr.v s.cpsr.c }

/-- The operations with no destination, type 2 (rule R200). -/
def isCompare (op : DpOp) : Bool :=
  match op with
  | .tst | .teq | .cmp | .cmn => true
  | .and | .eor | .sub | .rsb | .add | .adc | .sbc | .rsc | .orr | .mov | .bic | .mvn => false

/-- The logical class (rule R200). -/
def isLogical (op : DpOp) : Bool :=
  match op with
  | .and | .eor | .tst | .teq | .orr | .mov | .bic | .mvn => true
  | .sub | .rsb | .add | .adc | .sbc | .rsc | .cmp | .cmn => false

/-! ## Data as a load delivers it and a store leaves it (rules R64, R71) -/

/-- How many bytes an access moves. -/
def Width.bytes (w : Width) : Nat :=
  match w with
  | .byte => 1
  | .half => 2
  | .word => 4

/-- The data at an address, little-endian, extended to 32 bits. -/
def loaded (w : Width) (signed : Bool) (a : Word) (s : State) : Word :=
  match w with
  | .byte =>
    if signed = true then (s.readByte a).signExtend 32 else (s.readByte a).setWidth 32
  | .half =>
    if signed = true then (s.readByte (a + 1) ++ s.readByte a).signExtend 32
    else (s.readByte (a + 1) ++ s.readByte a).setWidth 32
  | .word => s.readByte (a + 3) ++ s.readByte (a + 2) ++ s.readByte (a + 1) ++ s.readByte a

/-- The kind of the access of a transfer. -/
def TransferView.kind (x : TransferView) : AccessKind := if x.load = true then .read else .write

/-- The address of the access of a transfer (rule R292). -/
def TransferView.address (x : TransferView) (s : State) : Word := x.am.addr s

/-- What lets the access of a transfer be made: alignment, no abort, no store into
program text, every byte admitted (rules R66 to R70, R78). -/
def TransferView.Admitted (x : TransferView) (s : State) : Prop :=
  x.width.aligned (x.address s) = true ∧
  s.platform.abortsAt x.kind (x.address s) = false ∧
  (x.load = false → ∀ b ∈ x.width.addresses (x.address s), s.platform.admits .fetch b = false) ∧
  ∀ b ∈ x.width.addresses (x.address s), s.platform.admits x.kind b = true

/-- The restrictions of rule R306 are kept, and the condition passes. -/
def TransferView.Runs (x : TransferView) (s : State) : Prop :=
  x.am.restriction x.rd15 x.rd = none ∧ conditionPassed x.c s.cpsr = true

/-- The rows of rule R306 on the offset and the write-back are kept: no register offset
R15, and with write-back a base that is not R15, not Rd and not the offset register. -/
def TransferView.keepsOffsetRows (x : TransferView) : Prop :=
  x.am.offset.register ≠ some 15 ∧
  (x.am.wb = true →
    x.am.rn ≠ 15 ∧ x.am.rn ≠ x.rd ∧ x.am.offset.register ≠ some x.am.rn)

/-! ## Frames -/

/-- Below the top of memory: the instruction has a successor (rule R27). -/
def State.HasNext (s : State) : Prop := s.pc.toNat + 4 < 2 ^ 32

/-- Every byte of memory reads as before. -/
def MemoryKept (s t : State) : Prop := ∀ a : Word, t.readByte a = s.readByte a

/-- Every general register of every bank is as before. -/
def RegsKept (s t : State) : Prop := ∀ p : PhysReg, t.reg p = s.reg p

/-- R`rd` of the current mode holds `v`, every other general register of every bank is
as before. -/
def OnlyReg (s t : State) (rd : Reg) (v : Word) : Prop :=
  ∀ p : PhysReg, t.reg p = if visible s.cpsr.mode rd = some p then v else s.reg p

/-- The SPSRs, the platform and the boundary are as before. -/
def SystemKept (s t : State) : Prop :=
  t.spsr = s.spsr ∧ t.platform = s.platform ∧ t.boundary = s.boundary

/-- The bits of the bytes a field mask names (rule R274). -/
def byteMask (fieldMask : BitVec 4) : Word :=
  (if fieldMask.getLsbD 0 = true then 0x000000FF else 0) |||
  (if fieldMask.getLsbD 1 = true then 0x0000FF00 else 0) |||
  (if fieldMask.getLsbD 2 = true then 0x00FF0000 else 0) |||
  (if fieldMask.getLsbD 3 = true then 0xFF000000 else 0)

/-- An instruction is refused under a restriction's name in every state. -/
def Refuses (i : Instr) (why : Restriction) : Prop :=
  ∀ s : State, exec i s = .refused (.unpredictable why)

/-- The instruction reads R15 as a register it must not be (rule R185): one of the four
registers of a register-specified shift. -/
def DpView.shiftReadsR15 (d : DpView) : Prop :=
  ∃ rs sh rm, d.operand = .shiftReg rs sh rm ∧ (d.rd = 15 ∨ d.rn = 15 ∨ rm = 15 ∨ rs = 15)

/-- No interrupt is taken at this boundary: each is not asserted or masked (rule R346). -/
def State.NoInterrupt (s : State) : Prop :=
  (s.boundary ∉ s.platform.fiqAt ∨ s.cpsr.f = true) ∧
  (s.boundary ∉ s.platform.irqAt ∨ s.cpsr.i = true)

/-- The step fetches an instruction: the run has not ended, no interrupt is taken, ARM
state (rules R16, R37, R389). -/
def State.RunsInstruction (s : State) : Prop :=
  s.platform.haltAddr ≠ some s.pc ∧ s.NoInterrupt ∧ s.cpsr.t = false

/-- The state after taking an exception from `s`, field by field, with every general
register but R14 of the new mode as `regs` says (rule R340). -/
def Entered (k : ExceptionKind) (s t : State) (regs : PhysReg → Word) : Prop :=
  t.pc = Config.vectorBase + k.vector ∧
  t.cpsr = { s.cpsr with mode := k.mode.toMode, t := false, i := true, f := s.cpsr.f || k.masksFiq } ∧
  t.spsr = s.spsr.set k.mode (Spsr.ofCpsr s.cpsr) ∧
  (∀ p, t.reg p = if p = linkReg k.mode.toMode then s.pc + k.linkOffset else regs p) ∧
  MemoryKept s t ∧ t.platform = s.platform ∧ t.boundary = s.boundary

/-- The state after the Data Abort of a transfer: the entry, with the base register as it
was or, in a form that writes back, updated (rules R307, R336). -/
def AbortEntered (x : TransferView) (s t : State) : Prop :=
  Entered .dataAbort s t s.reg ∨
  (x.am.wb = true ∧ Entered .dataAbort s t (fun p =>
    if visible s.cpsr.mode x.am.rn = some p then x.am.offAddr s else s.reg p))

end Sys2Proof.Machine
end

