-- ==== Sys2Proof/Certificates/Slice0/Obligations.lean ====
section
/-!
DEFINITION. The statements for the provers, with the rules of spec/ each formalises. A
statement that rests on a choice of the model says so and names the log entry.
-/

open Sys2Proof Sys2Proof.Machine

/-! ## Encoding (30_encoding.md) -/

/-- Decode and encode agree: the word of every instruction, with every operand at every
value its encoding admits, decodes to it (rules R93 to R107, R110). -/
def Obligations.DecodeOfEncode : Prop := ∀ i : Instr, decode (encode i) = .ok i

/-- Every bit of a word that decodes is a bit of the instruction: the word is its
encoding (rules R110, R111). -/
def Obligations.EncodeOfDecode : Prop :=
  ∀ (w : Word) (i : Instr), decode w = .ok i → encode i = w

/-- Words written from the formats of rules R93 to R107 decode to the instruction they
stand for, one for each format. -/
def Obligations.WordsOfTheFormats : Prop :=
  decode 0xE2010CFF#32 = .ok (.andImm .al false 1 0 12 0xFF) ∧
  decode 0xE0410182#32 = .ok (.subShiftImm .al false 1 0 3 .lsl 2) ∧
  decode 0xE1F00372#32 = .ok (.mvnShiftReg .al true 0 3 .ror 2) ∧
  decode 0xE0203291#32 = .ok (.mla .al false 0 3 2 1) ∧
  decode 0xE0C10392#32 = .ok (.smull .al false 1 0 3 2) ∧
  decode 0xEB00003E#32 = .ok (.bl .al 0x3E) ∧
  decode 0xE12FFF33#32 = .ok (.blxReg .al 3) ∧
  decode 0xFB000002#32 = .ok (.blxLabel true 2) ∧
  decode 0xE10F0000#32 = .ok (.mrs .al .cpsr 0) ∧
  decode 0xE328F20F#32 = .ok (.msrImm .al .cpsr 0b1000 2 0x0F) ∧
  decode 0xE121F000#32 = .ok (.msrReg .al .cpsr 0b0001 0) ∧
  decode 0xE5310004#32 = .ok (.ldrImmPre .al false true 1 0 4) ∧
  decode 0xE6010002#32 = .ok (.strRegPost .al false 1 0 0 .lsl 2) ∧
  decode 0xE6E10022#32 = .ok (.strbtReg .al true 1 0 0 .lsr 2) ∧
  decode 0xE0510FBE#32 = .ok (.ldrhImmPost .al false 1 0 0xF 0xE) ∧
  decode 0xE13100F2#32 = .ok (.ldrshRegPre .al false true 1 0 2) ∧
  decode 0xE7F000F0#32 = .ok (.undefined .al 0b11111000000000000111#20 0)

/-- Condition field 1111 is BLX label where bits 27:25 are 101, and is otherwise refused
(rule R114); decode and execution. -/
def Obligations.ConditionFieldOnes : Prop :=
  ∀ (w : Word) (s : State), bits w 28 4 = 0b1111#4 →
    (bits w 25 3 = 0b101#3 → decode w = .ok (.blxLabel (bit w 24) (bits w 0 24))) ∧
    (bits w 25 3 ≠ 0b101#3 → executeWord w s = .refused .cond1111)

/-- A word of classes 100, 110 and 111 (block transfers, coprocessor, SWI) matches no row
and is refused; it is no no-operation and takes no exception (rules R112, R334). -/
def Obligations.ClassesOutOfScope : Prop :=
  ∀ (w : Word) (s : State), bits w 28 4 ≠ 0b1111#4 →
    (bits w 25 3 = 0b100#3 ∨ bits w 25 3 = 0b110#3 ∨ bits w 25 3 = 0b111#3) →
    executeWord w s = .refused .encodingNotInScope

/-- A word with a condition, bits 27:25 = 011 and bit 4 = 1: the Undefined Instruction
exception if the condition passes, nothing but the pc if it fails (rules R113, R333). -/
def Obligations.UndefinedSpace : Prop :=
  ∀ (w : Word) (c : Cond) (s : State), Cond.ofCode (bits w 28 4) = some c →
    bits w 25 3 = 0b011#3 → bit w 4 = true →
    (conditionPassed c s.cpsr = true → ∃ t, executeWord w s = .next t ∧
      Entered .undefinedInstruction s t s.reg) ∧
    (conditionPassed c s.cpsr = false → s.HasNext →
      executeWord w s = .next { s with pc := s.pc + 4 })

/-- A word with a condition that matches no row of the opcode table is refused, and one
that matches a row is read as an instruction: a broken SBZ or SBO field, the reserved
multiply codes, an opcode 10xx with S = 0 that is no status transfer or exchange are words
of no row (rules R97, R110, R111, R112, R115). -/
def Obligations.WordsOfNoRow : Prop :=
  ∀ (w : Word) (s : State), bits w 28 4 ≠ 0b1111#4 →
    ((∀ row ∈ opcodeRows, w &&& row.1 ≠ row.2) →
      executeWord w s = .refused .encodingNotInScope) ∧
    ((∃ row ∈ opcodeRows, w &&& row.1 = row.2) → ∃ i, decode w = .ok i)

/-! ## Registers and status (10_state.md) -/

/-- Which register a number names in each mode, and that R15 names none (rules R23, R24). -/
def Obligations.RegisterBanks : Prop :=
  (∀ m : Mode, visible m 0 = some .r0 ∧ visible m 1 = some .r1 ∧ visible m 2 = some .r2 ∧
    visible m 3 = some .r3 ∧ visible m 4 = some .r4 ∧ visible m 5 = some .r5 ∧
    visible m 6 = some .r6 ∧ visible m 7 = some .r7 ∧ visible m 15 = none) ∧
  (∀ m : Mode, m ≠ .fiq → visible m 8 = some .r8 ∧ visible m 9 = some .r9 ∧
    visible m 10 = some .r10 ∧ visible m 11 = some .r11 ∧ visible m 12 = some .r12) ∧
  (visible .fiq 8 = some .r8_fiq ∧ visible .fiq 9 = some .r9_fiq ∧
    visible .fiq 10 = some .r10_fiq ∧ visible .fiq 11 = some .r11_fiq ∧
    visible .fiq 12 = some .r12_fiq) ∧
  (visible .usr 13 = some .r13 ∧ visible .sys 13 = some .r13 ∧ visible .fiq 13 = some .r13_fiq ∧
    visible .irq 13 = some .r13_irq ∧ visible .svc 13 = some .r13_svc ∧
    visible .abt 13 = some .r13_abt ∧ visible .und 13 = some .r13_und) ∧
  (visible .usr 14 = some .r14 ∧ visible .sys 14 = some .r14 ∧ visible .fiq 14 = some .r14_fiq ∧
    visible .irq 14 = some .r14_irq ∧ visible .svc 14 = some .r14_svc ∧
    visible .abt 14 = some .r14_abt ∧ visible .und 14 = some .r14_und)

/-- A write by number is read back by that number and changes no other register of any
bank; R15 reads the address of the instruction plus 8 (rules R10, R28, R39). -/
def Obligations.RegisterReadWrite : Prop :=
  ∀ (s : State) (i j : Reg) (v : Word), i ≠ 15 →
    (s.writeReg i v).readReg j = (if j = i then v else s.readReg j) ∧
    (∀ p, visible s.cpsr.mode i ≠ some p → (s.writeReg i v).reg p = s.reg p) ∧
    s.readReg 15 = s.pc + 8

/-- What reset leaves, of what the spec gives a value: the pc, svc, I = F = 1, T = 0,
bits 27:8 zero (rules R43, R380). -/
def Obligations.ResetValues : Prop :=
  State.reset.pc = Config.vectorBase + 0x00 ∧
  State.reset.cpsr.mode = .svc ∧ State.reset.cpsr.mode.toBits = 0b10011#5 ∧
  State.reset.cpsr.i = true ∧ State.reset.cpsr.f = true ∧ State.reset.cpsr.t = false ∧
  State.reset.cpsr.toWord &&& 0x0FFFFFFF#32 = 0x000000D3#32

/-- The bits of the CPSR and of an SPSR; the mode bits of each of the seven modes, 10000
usr, 10001 fiq, 10010 irq, 10011 svc, 10111 abt, 11011 und, 11111 sys, read as that mode and
no other value is legal (rules R30, R34, R35, R36). -/
def Obligations.StatusLayout : Prop :=
  (∀ p : Cpsr, p.toWord.getLsbD 31 = p.n ∧ p.toWord.getLsbD 30 = p.z ∧
    p.toWord.getLsbD 29 = p.c ∧ p.toWord.getLsbD 28 = p.v ∧ p.toWord.extractLsb' 8 20 = 0 ∧
    p.toWord.getLsbD 7 = p.i ∧ p.toWord.getLsbD 6 = p.f ∧ p.toWord.getLsbD 5 = p.t ∧
    p.toWord.extractLsb' 0 5 = p.mode.toBits) ∧
  (∀ p : Spsr, p.toWord.getLsbD 31 = p.n ∧ p.toWord.getLsbD 30 = p.z ∧
    p.toWord.getLsbD 29 = p.c ∧ p.toWord.getLsbD 28 = p.v ∧ p.toWord.extractLsb' 8 20 = 0 ∧
    p.toWord.getLsbD 7 = p.i ∧ p.toWord.getLsbD 6 = p.f ∧ p.toWord.getLsbD 5 = p.t ∧
    p.toWord.extractLsb' 0 5 = p.m) ∧
  (∀ row ∈ [(0x10#5, Mode.usr), (0x11#5, .fiq), (0x12#5, .irq), (0x13#5, .svc),
      (0x17#5, .abt), (0x1B#5, .und), (0x1F#5, .sys)],
    Mode.ofBits row.1 = some row.2 ∧ row.2.toBits = row.1) ∧
  (∀ b : BitVec 5, b ∉ [0x10#5, 0x11#5, 0x12#5, 0x13#5, 0x17#5, 0x1B#5, 0x1F#5] →
    Mode.ofBits b = none)

/-! ## Conditions (41_conditional_execution.md) -/

/-- ConditionPassed, by the numeric code: the three high bits choose the test, the low
bit negates it, and 1110 is always (rule R152). -/
def Obligations.ConditionTable : Prop :=
  ∀ (c : Cond) (p : Cpsr),
    conditionPassed c p =
      ((match (c.code.extractLsb' 1 3).toNat with
        | 0 => p.z
        | 1 => p.c
        | 2 => p.n
        | 3 => p.v
        | 4 => p.c && !p.z
        | 5 => p.n == p.v
        | 6 => p.n == p.v && !p.z
        | _ => true) != c.code.getLsbD 0)

/-- An instruction that breaks no restriction and whose condition fails writes nothing
but the pc; at the top of memory it is refused (rules R27, R153). For every instruction
but BLX label, which has no condition. That the top is pc + 4 = 2^32 or more, which says
more than rule R27 of a pc that is not word aligned, is log 21. -/
def Obligations.FailedCondition : Prop :=
  ∀ (i : Instr) (c : Cond) (s : State), conditionOf i = some c → i.restriction = none →
    conditionPassed c s.cpsr = false →
    (s.HasNext → exec i s = .next { s with pc := s.pc + 4 }) ∧
    (¬ s.HasNext → exec i s = .refused .pastTopOfMemory)

/-- A broken operand restriction is refused whether or not the condition passes, in every
state (rules R22, R153). By the register fields: R15 in a register-specified shift (R185);
a register offset R15, a write-back of R15, of Rd, or with Rm = Rn, and Rd = R15 in every
transfer but LDR (R306); BX and BLX of R15 (R133, R134); MRS to R15 (R271); MSR from R15
(R273). That the meaning refuses and not the decoder is log 17; which name it gives where a
word breaks two rows is log 18. -/
def Obligations.RestrictionRefused : Prop :=
  (∀ (i : Instr) (why : Restriction), i.restriction = some why → Refuses i why) ∧
  (∀ (i : Instr) (d : DpView), dpView i = some d → d.shiftReadsR15 → Refuses i .shiftRegR15) ∧
  (∀ (i : Instr) (x : TransferView), transferView i = some x →
    let rm := x.am.offset.register
    (rm = some 15 → Refuses i .offsetR15) ∧
    (rm ≠ some 15 → x.am.wb = true →
      (x.am.rn = 15 → Refuses i .writebackR15) ∧
      (x.am.rn ≠ 15 → x.am.rn = x.rd → Refuses i .writebackRnRd) ∧
      (x.am.rn ≠ 15 → x.am.rn ≠ x.rd → rm = some x.am.rn → Refuses i .writebackRmRn)) ∧
    (x.keepsOffsetRows → x.rd = 15 →
      (x.load = false → x.width = .word → Refuses i .storeR15 ∨ Refuses i .transferR15) ∧
      (x.width ≠ .word → Refuses i .transferR15))) ∧
  (∀ (c : Cond) (u : Bool) (rn rm : Reg) (imm12 : BitVec 12) (k : BitVec 5) (sh : ShiftType),
    rn ≠ 15 → Refuses (.ldrtImm c u rn 15 imm12) .transferR15 ∧
      (rm ≠ 15 → rm ≠ rn → Refuses (.ldrtReg c u rn 15 k sh rm) .transferR15)) ∧
  (∀ (c : Cond) (psr : PsrSel) (mask : BitVec 4),
    Refuses (.bx c 15) .bxR15 ∧ Refuses (.blxReg c 15) .blxR15 ∧
    Refuses (.mrs c psr 15) .mrsR15 ∧ Refuses (.msrReg c psr mask 15) .msrR15)

/-- Only those rows, and those of rule R257, are restrictions: an instruction that breaks
none of them breaks no restriction, by the function its statement asks and by the function
its meaning asks (rules R22, R133, R134, R185, R257, R271, R273, R306). -/
def Obligations.NoOtherRestriction : Prop :=
  (∀ (i : Instr) (d : DpView), dpView i = some d → ¬ d.shiftReadsR15 →
    i.restriction = none ∧ d.operand.restriction d.rn d.rd = none) ∧
  (∀ (i : Instr) (x : TransferView), transferView i = some x → x.keepsOffsetRows →
    (x.rd ≠ 15 ∨ (∃ c u w rn imm12, i = .ldrImmPre c u w rn 15 imm12) ∨
      (∃ c u rn imm12, i = .ldrImmPost c u rn 15 imm12) ∨
      (∃ c u w rn k sh rm, i = .ldrRegPre c u w rn 15 k sh rm) ∨
      (∃ c u rn k sh rm, i = .ldrRegPost c u rn 15 k sh rm)) →
    i.restriction = none ∧ x.am.restriction x.rd15 x.rd = none) ∧
  (∀ (c : Cond) (sf : Bool) (a b rs rm : Reg), a ≠ 15 → b ≠ 15 → rs ≠ 15 → rm ≠ 15 → a ≠ rm →
    (Instr.mul c sf a rs rm).restriction = none ∧
    (Instr.mla c sf a b rs rm).restriction = none ∧
    (a ≠ b → b ≠ rm →
      (Instr.umull c sf a b rs rm).restriction = none ∧
      (Instr.umlal c sf a b rs rm).restriction = none ∧
      (Instr.smull c sf a b rs rm).restriction = none ∧
      (Instr.smlal c sf a b rs rm).restriction = none)) ∧
  (∀ (c : Cond) (h : Bool) (imm24 : BitVec 24) (psr : PsrSel) (mask rotate : BitVec 4)
    (imm8 : BitVec 8) (hi : BitVec 20) (lo : BitVec 4) (r : Reg),
    (Instr.b c imm24).restriction = none ∧ (Instr.bl c imm24).restriction = none ∧
    (Instr.blxLabel h imm24).restriction = none ∧
    (Instr.msrImm c psr mask rotate imm8).restriction = none ∧
    (Instr.undefined c hi lo).restriction = none ∧
    (r ≠ 15 → (Instr.bx c r).restriction = none ∧ (Instr.blxReg c r).restriction = none ∧
      (Instr.mrs c psr r).restriction = none ∧ (Instr.msrReg c psr mask r).restriction = none))

/-! ## Operand2 (42_operand2_shifter.md) -/

/-- An immediate: the byte zero-extended and rotated right by twice the field; the carry
is C where the field is 0, else bit 31 (rule R171). -/
def Obligations.ImmediateOperand : Prop :=
  ∀ (rotate : BitVec 4) (imm8 : BitVec 8) (s : State),
    let out := shifterOperand (.imm rotate imm8) s
    out.value = ((imm8.setWidth 32 >>> (2 * rotate.toNat)) |||
      (imm8.setWidth 32 <<< (32 - 2 * rotate.toNat))) ∧
    out.carry = (if rotate = 0 then s.cpsr.c else out.value.getLsbD 31)

/-- A register shifted by an amount in the word, every shift type and every code of the
amount; 0 stands for 32 in LSR and ASR, for RRX in ROR (rules R173 to R178). The shifts
are those of rule R9, as arithmetic. -/
def Obligations.ShiftByValue : Prop :=
  ∀ (v : Word) (k : BitVec 5) (c : Bool),
    shiftByImmediate v .lsl 0 c = ⟨v, c⟩ ∧
    (k ≠ 0 →
      (shiftByImmediate v .lsl k c).value.toNat = v.toNat * 2 ^ k.toNat % 2 ^ 32 ∧
      (shiftByImmediate v .lsl k c).carry = v.getLsbD (32 - k.toNat) ∧
      (shiftByImmediate v .lsr k c).value.toNat = v.toNat / 2 ^ k.toNat ∧
      (shiftByImmediate v .lsr k c).carry = v.getLsbD (k.toNat - 1) ∧
      (shiftByImmediate v .asr k c).value.toInt = v.toInt / 2 ^ k.toNat ∧
      (shiftByImmediate v .asr k c).carry = v.getLsbD (k.toNat - 1) ∧
      (shiftByImmediate v .ror k c).value = ((v >>> k.toNat) ||| (v <<< (32 - k.toNat))) ∧
      (shiftByImmediate v .ror k c).carry = v.getLsbD (k.toNat - 1)) ∧
    shiftByImmediate v .lsr 0 c = ⟨0, v.getLsbD 31⟩ ∧
    shiftByImmediate v .asr 0 c =
      ⟨if v.getLsbD 31 = true then 0xFFFFFFFF else 0, v.getLsbD 31⟩ ∧
    (∀ j, (shiftByImmediate v .ror 0 c).value.getLsbD j =
      (if j = 31 then c else v.getLsbD (j + 1))) ∧
    (shiftByImmediate v .ror 0 c).carry = v.getLsbD 0

/-- A register shifted by the low byte `n` of a register: 0, 1 to 31, 32, and more, every
shift type (rules R179 to R184). -/
def Obligations.ShiftByRegister : Prop :=
  ∀ (v : Word) (n : BitVec 8) (c : Bool),
    (∀ sh, shiftByRegister v sh 0 c = ⟨v, c⟩) ∧
    (1 ≤ n.toNat → n.toNat ≤ 31 →
      (shiftByRegister v .lsl n.toNat c).value.toNat = v.toNat * 2 ^ n.toNat % 2 ^ 32 ∧
      (shiftByRegister v .lsl n.toNat c).carry = v.getLsbD (32 - n.toNat) ∧
      (shiftByRegister v .lsr n.toNat c).value.toNat = v.toNat / 2 ^ n.toNat ∧
      (shiftByRegister v .lsr n.toNat c).carry = v.getLsbD (n.toNat - 1) ∧
      (shiftByRegister v .asr n.toNat c).value.toInt = v.toInt / 2 ^ n.toNat ∧
      (shiftByRegister v .asr n.toNat c).carry = v.getLsbD (n.toNat - 1) ∧
      (shiftByRegister v .ror n.toNat c).value =
        ((v >>> n.toNat) ||| (v <<< (32 - n.toNat))) ∧
      (shiftByRegister v .ror n.toNat c).carry = v.getLsbD (n.toNat - 1)) ∧
    shiftByRegister v .lsl 32 c = ⟨0, v.getLsbD 0⟩ ∧
    shiftByRegister v .lsr 32 c = ⟨0, v.getLsbD 31⟩ ∧
    shiftByRegister v .ror 32 c = ⟨v, v.getLsbD 31⟩ ∧
    (33 ≤ n.toNat → shiftByRegister v .lsl n.toNat c = ⟨0, false⟩ ∧
      shiftByRegister v .lsr n.toNat c = ⟨0, false⟩ ∧
      shiftByRegister v .ror n.toNat c = shiftByRegister v .ror (n.toNat - 32) c) ∧
    (32 ≤ n.toNat → shiftByRegister v .asr n.toNat c =
      ⟨if v.getLsbD 31 = true then 0xFFFFFFFF else 0, v.getLsbD 31⟩)

/-- Which values the shifter is given: the register Rm, the low byte of Rs, and C before
the instruction; R15 as Rm reads the instruction's address plus 8 (rules R170, R179). -/
def Obligations.ShifterReads : Prop :=
  ∀ (s : State) (code : BitVec 5) (sh : ShiftType) (rs rm : Reg),
    shifterOperand (.shiftImm code sh rm) s = shiftByImmediate (s.readReg rm) sh code s.cpsr.c ∧
    shifterOperand (.shiftReg rs sh rm) s =
      shiftByRegister (s.readReg rm) sh ((s.readReg rs).toNat % 256) s.cpsr.c ∧
    shifterOperand (.shiftImm code sh 15) s = shiftByImmediate (s.pc + 8) sh code s.cpsr.c

/-! ## Data processing (43_data_processing.md) -/

/-- AddWithCarry, and that the carry of a subtraction is no borrow (rule R201). -/
def Obligations.AddWithCarry : Prop :=
  ∀ (a b : Word) (cin : Bool),
    (addWithCarry a b cin).value.toNat = (a.toNat + b.toNat + cin.toNat) % 2 ^ 32 ∧
    ((addWithCarry a b cin).carry = true ↔ 2 ^ 32 ≤ a.toNat + b.toNat + cin.toNat) ∧
    ((addWithCarry a b cin).overflow = true ↔
      (addWithCarry a b cin).value.toInt ≠ a.toInt + b.toInt + cin.toNat) ∧
    (addWithCarry a (~~~b) true).value = a - b ∧
    ((addWithCarry a (~~~b) true).carry = true ↔ b.toNat ≤ a.toNat)

/-- AND, EOR, ORR, BIC, every form of Operand2, Rd not R15: they complete; Rd holds the
result, with S the flags N, Z from it and C the shifter carry, V as before; nothing else
changes but the pc (rules R202, R204, R205, R216, R218). -/
def Obligations.LogicalEffect : Prop :=
  ∀ (i : Instr) (d : DpView) (s : State), dpView i = some d →
    d.op ∈ [DpOp.and, .eor, .orr, .bic] → d.operand.restriction d.rn d.rd = none →
    conditionPassed d.c s.cpsr = true → d.rd ≠ 15 → s.HasNext →
    ∃ t, exec i s = .next t ∧ t.pc = s.pc + 4 ∧ OnlyReg s t d.rd (d.result s) ∧
      t.cpsr = (if d.sf = true then d.flags s else s.cpsr) ∧ SystemKept s t ∧ MemoryKept s t

/-- SUB, RSB, ADD, ADC, SBC, RSC, every form of Operand2, Rd not R15: they complete; Rd
holds the result, with S the flags N, Z from it, C the carry or no borrow, V signed
overflow; nothing else changes but the pc (rules R202, R206 to R211). -/
def Obligations.ArithmeticEffect : Prop :=
  ∀ (i : Instr) (d : DpView) (s : State), dpView i = some d →
    d.op ∈ [DpOp.sub, .rsb, .add, .adc, .sbc, .rsc] → d.operand.restriction d.rn d.rd = none →
    conditionPassed d.c s.cpsr = true → d.rd ≠ 15 → s.HasNext →
    ∃ t, exec i s = .next t ∧ t.pc = s.pc + 4 ∧ OnlyReg s t d.rd (d.result s) ∧
      t.cpsr = (if d.sf = true then d.flags s else s.cpsr) ∧ SystemKept s t ∧ MemoryKept s t

/-- MOV and MVN, every form of Operand2, Rd not R15: they complete; Rd holds Operand2 or
its complement, with S the flags N, Z, C of the logical class; nothing else changes but
the pc (rules R202, R217, R219). -/
def Obligations.MoveEffect : Prop :=
  ∀ (i : Instr) (d : DpView) (s : State), dpView i = some d →
    d.op ∈ [DpOp.mov, .mvn] → d.operand.restriction d.rn d.rd = none →
    conditionPassed d.c s.cpsr = true → d.rd ≠ 15 → s.HasNext →
    ∃ t, exec i s = .next t ∧ t.pc = s.pc + 4 ∧ OnlyReg s t d.rd (d.result s) ∧
      t.cpsr = (if d.sf = true then d.flags s else s.cpsr) ∧ SystemKept s t ∧ MemoryKept s t

/-- TST, TEQ, CMP, CMN, every form of Operand2: they complete; the flags are always
written, no register is (rules R202, R212 to R215). -/
def Obligations.CompareEffect : Prop :=
  ∀ (i : Instr) (d : DpView) (s : State), dpView i = some d → isCompare d.op = true →
    d.operand.restriction d.rn d.rd = none → conditionPassed d.c s.cpsr = true → s.HasNext →
    ∃ t, exec i s = .next t ∧ t.pc = s.pc + 4 ∧ RegsKept s t ∧ t.cpsr = d.flags s ∧
      SystemKept s t ∧ MemoryKept s t

/-- Data processing with Rd = R15 and S = 0, the twelve operations that have Rd: a branch
to the result if it is word aligned, else refused; the flags and T stay (rule R203). -/
def Obligations.DataProcessingBranch : Prop :=
  ∀ (i : Instr) (d : DpView) (s : State), dpView i = some d → isCompare d.op = false →
    d.operand.restriction d.rn d.rd = none → conditionPassed d.c s.cpsr = true → d.rd = 15 →
    d.sf = false →
    ((d.result s).extractLsb' 0 2 = 0 → ∃ t, exec i s = .next t ∧ t.pc = d.result s ∧
      RegsKept s t ∧ t.cpsr = s.cpsr ∧ SystemKept s t ∧ MemoryKept s t) ∧
    ((d.result s).extractLsb' 0 2 ≠ 0 → exec i s = .refused .misalignedPcWrite)

/-- Data processing with Rd = R15 and S = 1, the return from an exception: the SPSR of the
mode goes whole to the CPSR and the result to the pc; refused, in this order, in User and
System mode, on an illegal mode, on a target misaligned for the state restored (rules
R203, R342). -/
def Obligations.ExceptionReturn : Prop :=
  ∀ (i : Instr) (d : DpView) (s : State), dpView i = some d → isCompare d.op = false →
    d.operand.restriction d.rn d.rd = none → conditionPassed d.c s.cpsr = true → d.rd = 15 →
    d.sf = true →
    (s.cpsr.mode = .usr ∨ s.cpsr.mode = .sys → exec i s = .refused .returnWithoutSpsr) ∧
    (∀ e, s.cpsr.mode = e.toMode →
      (Mode.ofBits (s.spsr.get e).m = none → exec i s = .refused .illegalModeRestored) ∧
      (∀ m, Mode.ofBits (s.spsr.get e).m = some m →
        let aligned : Bool := if (s.spsr.get e).t = true then !(d.result s).getLsbD 0
          else (d.result s).extractLsb' 0 2 == 0
        (aligned = false → exec i s = .refused .misalignedReturn) ∧
        (aligned = true → ∃ t, exec i s = .next t ∧ t.pc = d.result s ∧
          t.cpsr.toWord = (s.spsr.get e).toWord ∧ t.cpsr.mode = m ∧
          RegsKept s t ∧ SystemKept s t ∧ MemoryKept s t)))

/-! ## Multiply (44_multiply.md) -/

/-- MUL and MLA complete: Rd holds the low 32 bits, with S the flags N and Z of it; V and
the rest as before, C any value with S (rules R251, R252, R258; log 9: nothing is said of C). -/
def Obligations.MultiplyEffect : Prop :=
  ∀ (c : Cond) (sf : Bool) (rd rn rs rm : Reg) (s : State),
    rd ≠ 15 → rn ≠ 15 → rs ≠ 15 → rm ≠ 15 → rd ≠ rm → conditionPassed c s.cpsr = true →
    s.HasNext →
    (∃ t, exec (.mul c sf rd rs rm) s = .next t ∧ t.pc = s.pc + 4 ∧
      OnlyReg s t rd (s.readReg rm * s.readReg rs) ∧
      t.cpsr = (if sf = true then
        { s.cpsr with
          n := (s.readReg rm * s.readReg rs).getLsbD 31
          z := decide (s.readReg rm * s.readReg rs = 0), c := t.cpsr.c } else s.cpsr) ∧
      SystemKept s t ∧ MemoryKept s t) ∧
    (∃ t, exec (.mla c sf rd rn rs rm) s = .next t ∧ t.pc = s.pc + 4 ∧
      OnlyReg s t rd (s.readReg rm * s.readReg rs + s.readReg rn) ∧
      t.cpsr = (if sf = true then
        { s.cpsr with
          n := (s.readReg rm * s.readReg rs + s.readReg rn).getLsbD 31
          z := decide (s.readReg rm * s.readReg rs + s.readReg rn = 0), c := t.cpsr.c }
        else s.cpsr) ∧
      SystemKept s t ∧ MemoryKept s t)

/-- UMULL, UMLAL, SMULL, SMLAL complete: RdHi:RdLo holds the 64-bit product, plus RdHi:RdLo
before for the accumulating ones, modulo 2^64; with S the flags N and Z of it; the rest as
before, C and V any value with S (rules R253 to R256, R258; log 9: nothing is said of C, V). -/
def Obligations.LongMultiplyEffect : Prop :=
  ∀ (c : Cond) (sf : Bool) (rdHi rdLo rs rm : Reg) (s : State),
    rdHi ≠ 15 → rdLo ≠ 15 → rs ≠ 15 → rm ≠ 15 → rdHi ≠ rdLo → rdHi ≠ rm → rdLo ≠ rm →
    conditionPassed c s.cpsr = true → s.HasNext →
    let acc : Int := (s.readReg rdHi).toNat * 2 ^ 32 + (s.readReg rdLo).toNat
    let unsigned : Int := (s.readReg rm).toNat * (s.readReg rs).toNat
    let signed : Int := (s.readReg rm).toInt * (s.readReg rs).toInt
    ∀ row ∈ [(Instr.umull c sf rdHi rdLo rs rm, unsigned),
        (.umlal c sf rdHi rdLo rs rm, unsigned + acc),
        (.smull c sf rdHi rdLo rs rm, signed),
        (.smlal c sf rdHi rdLo rs rm, signed + acc)],
      ∃ t, ∃ p : BitVec 64, exec row.1 s = .next t ∧ (p.toNat : Int) = row.2 % 2 ^ 64 ∧
        t.pc = s.pc + 4 ∧
        (∀ q, t.reg q = if visible s.cpsr.mode rdHi = some q then p.extractLsb' 32 32
          else if visible s.cpsr.mode rdLo = some q then p.extractLsb' 0 32 else s.reg q) ∧
        t.cpsr = (if sf = true then
          { s.cpsr with
            n := p.getLsbD 63, z := decide (p = 0), c := t.cpsr.c, v := t.cpsr.v }
          else s.cpsr) ∧
        SystemKept s t ∧ MemoryKept s t

/-- The multiplies' register restrictions: refused in every state (rule R257); that R15 is
named where a word breaks two of them is log 18. -/
def Obligations.MultiplyRestrictions : Prop :=
  ∀ (c : Cond) (sf : Bool) (a b rs rm : Reg) (s : State),
    (a = 15 ∨ b = 15 ∨ rs = 15 ∨ rm = 15 →
      exec (.mla c sf a b rs rm) s = .refused (.unpredictable .multiplyR15) ∧
      exec (.umull c sf a b rs rm) s = .refused (.unpredictable .multiplyR15) ∧
      exec (.umlal c sf a b rs rm) s = .refused (.unpredictable .multiplyR15) ∧
      exec (.smull c sf a b rs rm) s = .refused (.unpredictable .multiplyR15) ∧
      exec (.smlal c sf a b rs rm) s = .refused (.unpredictable .multiplyR15)) ∧
    (a = 15 ∨ rs = 15 ∨ rm = 15 →
      exec (.mul c sf a rs rm) s = .refused (.unpredictable .multiplyR15)) ∧
    (¬ (a = 15 ∨ b = 15 ∨ rs = 15 ∨ rm = 15) →
      (a = rm → exec (.mul c sf a rs rm) s = .refused (.unpredictable .multiplyRdRm) ∧
        exec (.mla c sf a b rs rm) s = .refused (.unpredictable .multiplyRdRm)) ∧
      (a = b ∨ a = rm ∨ b = rm →
        exec (.umull c sf a b rs rm) s = .refused (.unpredictable .longMultiplyRegs) ∧
        exec (.umlal c sf a b rs rm) s = .refused (.unpredictable .longMultiplyRegs) ∧
        exec (.smull c sf a b rs rm) s = .refused (.unpredictable .longMultiplyRegs) ∧
        exec (.smlal c sf a b rs rm) s = .refused (.unpredictable .longMultiplyRegs)))

/-! ## Branches (40_branch.md) -/

/-- B and BL: the target is instr_addr + 8 plus four times the signed field, an unbounded
integer; in the address space they complete, BL with the link in R14 of the mode; outside
it they are refused (rules R131, R132). -/
def Obligations.BranchEffect : Prop :=
  ∀ (c : Cond) (imm24 : BitVec 24) (s : State), conditionPassed c s.cpsr = true →
    let target : Int := s.pc.toNat + 8 + 4 * imm24.toInt
    (0 ≤ target ∧ target ≤ 0xFFFFFFFC →
      (∃ t, exec (.b c imm24) s = .next t ∧ (t.pc.toNat : Int) = target ∧ RegsKept s t ∧
        t.cpsr = s.cpsr ∧ SystemKept s t ∧ MemoryKept s t) ∧
      (∃ t, exec (.bl c imm24) s = .next t ∧ (t.pc.toNat : Int) = target ∧
        OnlyReg s t 14 (s.pc + 4) ∧ t.cpsr = s.cpsr ∧ SystemKept s t ∧ MemoryKept s t)) ∧
    (target < 0 ∨ 0xFFFFFFFC < target →
      exec (.b c imm24) s = .refused .branchWraps ∧
      exec (.bl c imm24) s = .refused .branchWraps)

/-- BX and BLX with a register: T is bit 0 of Rm, the pc Rm with bit 0 clear, BLX links in
R14 after it read Rm; a target with bits 1:0 = 10 is refused (rules R133, R134). -/
def Obligations.ExchangeEffect : Prop :=
  ∀ (c : Cond) (rm : Reg) (s : State), rm ≠ 15 → conditionPassed c s.cpsr = true →
    ((s.readReg rm).extractLsb' 0 2 ≠ 0b10#2 →
      (∃ t, exec (.bx c rm) s = .next t ∧ t.pc = s.readReg rm &&& 0xFFFFFFFE ∧
        t.cpsr = { s.cpsr with t := (s.readReg rm).getLsbD 0 } ∧ RegsKept s t ∧
        SystemKept s t ∧ MemoryKept s t) ∧
      (∃ t, exec (.blxReg c rm) s = .next t ∧ t.pc = s.readReg rm &&& 0xFFFFFFFE ∧
        t.cpsr = { s.cpsr with t := (s.readReg rm).getLsbD 0 } ∧ OnlyReg s t 14 (s.pc + 4) ∧
        SystemKept s t ∧ MemoryKept s t)) ∧
    ((s.readReg rm).extractLsb' 0 2 = 0b10#2 →
      exec (.bx c rm) s = .refused .bxMisaligned ∧
      exec (.blxReg c rm) s = .refused .blxMisaligned)

/-- BLX with a label, unconditional: the link, T = 1, the halfword-aligned target; outside
the address space refused (rule R135). -/
def Obligations.BlxLabelEffect : Prop :=
  ∀ (h : Bool) (imm24 : BitVec 24) (s : State),
    let target : Int := s.pc.toNat + 8 + 4 * imm24.toInt + 2 * h.toNat
    (0 ≤ target ∧ target ≤ 0xFFFFFFFE →
      ∃ t, exec (.blxLabel h imm24) s = .next t ∧ (t.pc.toNat : Int) = target ∧
        OnlyReg s t 14 (s.pc + 4) ∧ t.cpsr = { s.cpsr with t := true } ∧ SystemKept s t ∧
        MemoryKept s t) ∧
    (target < 0 ∨ 0xFFFFFFFE < target → exec (.blxLabel h imm24) s = .refused .branchWraps)

/-! ## Status-register transfers (45_status_register_transfer.md) -/

/-- MRS completes: Rd holds the CPSR, or the SPSR of a mode that has one; in User and
System mode the SPSR is refused (rule R271). -/
def Obligations.MrsEffect : Prop :=
  ∀ (c : Cond) (rd : Reg) (s : State), rd ≠ 15 → conditionPassed c s.cpsr = true → s.HasNext →
    (∃ t, exec (.mrs c .cpsr rd) s = .next t ∧ t.pc = s.pc + 4 ∧
      OnlyReg s t rd s.cpsr.toWord ∧ t.cpsr = s.cpsr ∧ SystemKept s t ∧ MemoryKept s t) ∧
    (∀ e, s.cpsr.mode = e.toMode → ∃ t, exec (.mrs c .spsr rd) s = .next t ∧
      t.pc = s.pc + 4 ∧ OnlyReg s t rd (s.spsr.get e).toWord ∧ t.cpsr = s.cpsr ∧
      SystemKept s t ∧ MemoryKept s t) ∧
    (s.cpsr.mode = .usr ∨ s.cpsr.mode = .sys → exec (.mrs c .spsr rd) s = .refused .noSpsr)

/-- MSR to the CPSR, both forms, with an operand that passes the checks of rule R275: the
bytes the field mask names change, in a privileged mode the flags, I, F and M, in User
mode the flags only, never T and never a reserved bit; nothing else but the pc changes
(rules R272 to R275). -/
def Obligations.MsrCpsrEffect : Prop :=
  ∀ (c : Cond) (mask rotate : BitVec 4) (imm8 : BitVec 8) (rm : Reg) (s : State), rm ≠ 15 →
    conditionPassed c s.cpsr = true → s.HasNext →
    ∀ row ∈ [(Instr.msrImm c .cpsr mask rotate imm8, rotatedImmediate rotate imm8),
        (.msrReg c .cpsr mask rm, s.readReg rm)],
      row.2 &&& 0x0FFFFF00 = 0 →
      (s.cpsr.mode ≠ .usr → mask.getLsbD 0 = true →
        row.2.getLsbD 5 = false ∧ (Mode.ofBits (row.2.extractLsb' 0 5)).isSome = true) →
      let writable : Word :=
        byteMask mask &&& (if s.cpsr.mode = .usr then 0xF0000000 else 0xF00000DF)
      ∃ t, exec row.1 s = .next t ∧ t.pc = s.pc + 4 ∧
        t.cpsr.toWord = ((s.cpsr.toWord &&& ~~~writable) ||| (row.2 &&& writable)) ∧
        RegsKept s t ∧ SystemKept s t ∧ MemoryKept s t

/-- MSR to the SPSR, both forms, in a mode that has one and with no reserved bit in the
operand: the bytes the field mask names change, flags, I, F, T and M; no other SPSR and
nothing else but the pc changes (rules R272 to R275). -/
def Obligations.MsrSpsrEffect : Prop :=
  ∀ (c : Cond) (mask rotate : BitVec 4) (imm8 : BitVec 8) (rm : Reg) (s : State) (e : ExcMode),
    rm ≠ 15 → conditionPassed c s.cpsr = true → s.HasNext → s.cpsr.mode = e.toMode →
    ∀ row ∈ [(Instr.msrImm c .spsr mask rotate imm8, rotatedImmediate rotate imm8),
        (.msrReg c .spsr mask rm, s.readReg rm)],
      row.2 &&& 0x0FFFFF00 = 0 →
      let writable : Word := byteMask mask &&& 0xF00000FF
      ∃ t, exec row.1 s = .next t ∧ t.pc = s.pc + 4 ∧
        (t.spsr.get e).toWord =
          (((s.spsr.get e).toWord &&& ~~~writable) ||| (row.2 &&& writable)) ∧
        (∀ e', e' ≠ e → t.spsr.get e' = s.spsr.get e') ∧ t.cpsr = s.cpsr ∧
        RegsKept s t ∧ MemoryKept s t ∧ t.platform = s.platform ∧ t.boundary = s.boundary

/-- The checks of MSR, both forms, in their order: reserved bits of the whole operand
whatever the mask; the SPSR in User and System mode; T, then an illegal mode, in a
privileged write of the control byte of the CPSR (rule R275). -/
def Obligations.MsrChecks : Prop :=
  ∀ (c : Cond) (mask rotate : BitVec 4) (imm8 : BitVec 8) (rm : Reg) (s : State), rm ≠ 15 →
    conditionPassed c s.cpsr = true →
    ∀ row ∈ [((fun psr => Instr.msrImm c psr mask rotate imm8), rotatedImmediate rotate imm8),
        ((fun psr => Instr.msrReg c psr mask rm), s.readReg rm)],
      (row.2 &&& 0x0FFFFF00 ≠ 0 → ∀ psr, exec (row.1 psr) s = .refused .msrReservedBits) ∧
      (row.2 &&& 0x0FFFFF00 = 0 →
        (s.cpsr.mode = .usr ∨ s.cpsr.mode = .sys → exec (row.1 .spsr) s = .refused .noSpsr) ∧
        (s.cpsr.mode ≠ .usr → mask.getLsbD 0 = true →
          (row.2.getLsbD 5 = true → exec (row.1 .cpsr) s = .refused .msrSetsT) ∧
          (row.2.getLsbD 5 = false → Mode.ofBits (row.2.extractLsb' 0 5) = none →
            exec (row.1 .cpsr) s = .refused .msrIllegalMode)))

/-! ## Single data transfers (46_data_transfer.md, 20_memory.md) -/

/-- LDR, LDRB, LDRT, LDRBT, every addressing form, Rd not R15: an admitted access
completes; Rd holds the word or the zero-extended byte, the base is written back where the
form says so, nothing else changes but the pc (rules R291 to R293, R295, R297, R299). -/
def Obligations.LoadEffect : Prop :=
  ∀ (i : Instr) (x : TransferView) (s : State), transferView i = some x → x.load = true →
    x.width ≠ .half → x.signed = false → x.Runs s → x.rd ≠ 15 → x.Admitted s → s.HasNext →
    ∃ t, exec i s = .next t ∧ t.pc = s.pc + 4 ∧
      (∀ p, t.reg p = if visible s.cpsr.mode x.rd = some p then
          loaded x.width x.signed (x.address s) s
        else if x.am.wb = true ∧ visible s.cpsr.mode x.am.rn = some p then x.am.offAddr s
        else s.reg p) ∧
      t.cpsr = s.cpsr ∧ SystemKept s t ∧ MemoryKept s t

/-- LDRH, LDRSB, LDRSH, every addressing form: an admitted access completes; Rd holds the
zero- or sign-extended halfword or byte, the base is written back where the form says so,
nothing else changes but the pc (rules R292, R301, R302, R304, R305). -/
def Obligations.HalfwordLoadEffect : Prop :=
  ∀ (i : Instr) (x : TransferView) (s : State), transferView i = some x → x.load = true →
    (x.width = .half ∨ x.signed = true) → x.Runs s → x.Admitted s → s.HasNext →
    ∃ t, exec i s = .next t ∧ t.pc = s.pc + 4 ∧
      (∀ p, t.reg p = if visible s.cpsr.mode x.rd = some p then
          loaded x.width x.signed (x.address s) s
        else if x.am.wb = true ∧ visible s.cpsr.mode x.am.rn = some p then x.am.offAddr s
        else s.reg p) ∧
      t.cpsr = s.cpsr ∧ SystemKept s t ∧ MemoryKept s t

/-- STR, STRB, STRT, STRBT, STRH, every addressing form: an admitted access completes; the
bytes at the address hold the low bytes of Rd, little-endian, every byte outside them
reads as before, the base is written back where the form says so, nothing else changes
but the pc (rules R64, R292, R294, R296, R298, R300, R303). -/
def Obligations.StoreEffect : Prop :=
  ∀ (i : Instr) (x : TransferView) (s : State), transferView i = some x → x.load = false →
    x.Runs s → x.Admitted s → s.HasNext → Memory.wf s.mem = true →
    ∃ t, exec i s = .next t ∧ t.pc = s.pc + 4 ∧
      (∀ k, k < x.width.bytes → t.readByte (x.address s + BitVec.ofNat 32 k) =
        (s.readReg x.rd).extractLsb' (8 * k) 8) ∧
      (∀ b, b ∉ x.width.addresses (x.address s) → t.readByte b = s.readByte b) ∧
      (∀ p, t.reg p = if x.am.wb = true ∧ visible s.cpsr.mode x.am.rn = some p then
          x.am.offAddr s else s.reg p) ∧
      t.cpsr = s.cpsr ∧ SystemKept s t

/-- LDR to R15, every addressing form, an admitted access: bits 1:0 = 10 of the word are
refused; else T is bit 0, the pc the word with bit 0 clear, the base written back where
the form says so, nothing else changes (rules R292, R293). -/
def Obligations.LoadToPc : Prop :=
  ∀ (i : Instr) (x : TransferView) (s : State), transferView i = some x → x.load = true →
    x.Runs s → x.rd = 15 → x.Admitted s →
    let data := loaded .word false (x.address s) s
    (data.extractLsb' 0 2 = 0b10#2 → exec i s = .refused .loadPcMisaligned) ∧
    (data.extractLsb' 0 2 ≠ 0b10#2 → ∃ t, exec i s = .next t ∧ t.pc = data &&& 0xFFFFFFFE ∧
      t.cpsr = { s.cpsr with t := data.getLsbD 0 } ∧
      (∀ p, t.reg p = if x.am.wb = true ∧ visible s.cpsr.mode x.am.rn = some p then
          x.am.offAddr s else s.reg p) ∧
      SystemKept s t ∧ MemoryKept s t)

/-- The offset, the address and what is written back, for each addressing mode: U adds or
subtracts, modulo 2^32; post-indexed accesses are at the base; the immediates are
zero-extended; R15 as base reads the instruction's address plus 8 (rules R291, R292, R301). -/
def Obligations.TransferAddress : Prop :=
  ∀ (s : State) (u w : Bool) (rn rm : Reg) (off : Offset) (imm12 : BitVec 12)
    (immH immL : BitVec 4) (k : BitVec 5) (sh : ShiftType),
    let offAddr : Word :=
      if u = true then s.readReg rn + off.value s else s.readReg rn - off.value s
    (preIndexed u w rn off).addr s = offAddr ∧ (preIndexed u w rn off).wb = w ∧
    (preIndexed u w rn off).offAddr s = offAddr ∧
    (postIndexed u rn off).addr s = s.readReg rn ∧ (postIndexed u rn off).wb = true ∧
    (postIndexed u rn off).offAddr s = offAddr ∧
    ((offset12 imm12).value s).toNat = imm12.toNat ∧
    ((offset8 immH immL).value s).toNat = 16 * immH.toNat + immL.toNat ∧
    (Offset.reg rm).value s = s.readReg rm ∧
    (Offset.shifted k sh rm).value s =
      (shiftByImmediate (s.readReg rm) sh k s.cpsr.c).value ∧
    (preIndexed true w 15 (offset12 imm12)).addr s = s.pc + 8 + imm12.setWidth 32

/-- A transfer whose access aborts takes a Data Abort: Rd and memory are as before, the
base is the old one or the updated one, then the entry at vector 0x10 in abt with R14_abt
= instr_addr + 8; an access not aligned does so too where the policy is abort (rules R66,
R70, R307, R336; log 10: nothing is said of which base). That ABORT is asked at the
access's own address is log 7, and that a store which both aborts and overlaps program text
takes the Data Abort is log 15. -/
def Obligations.TransferAbort : Prop :=
  ∀ (i : Instr) (x : TransferView) (s : State), transferView i = some x → x.Runs s →
    (x.width.aligned (x.address s) = true ∧ s.platform.abortsAt x.kind (x.address s) = true ∨
      x.width.aligned (x.address s) = false ∧ s.platform.misaligned = .abort) →
    ∃ t, exec i s = .next t ∧ AbortEntered x s t

/-- Where a transfer stops: a misaligned access under the policy refuse; a store to a byte
admitted for fetch; an access to a byte not admitted, which is stuck (rules R66, R68,
R70, R78). That the text check comes after ABORT and before the map is log 15, and that the
access outside the map, which rule R68 writes as a REFUSE, is a fault is log 16. -/
def Obligations.TransferStops : Prop :=
  ∀ (i : Instr) (x : TransferView) (s : State), transferView i = some x → x.Runs s →
    (x.width.aligned (x.address s) = false → s.platform.misaligned = .refuse →
      exec i s = .refused .misalignedAccess) ∧
    (x.width.aligned (x.address s) = true →
      s.platform.abortsAt x.kind (x.address s) = false →
      ((x.load = false ∧ ∃ b ∈ x.width.addresses (x.address s), s.platform.admits .fetch b = true) →
        exec i s = .refused .storeIntoProgramText) ∧
      ((x.load = true ∨ ∀ b ∈ x.width.addresses (x.address s), s.platform.admits .fetch b = false) →
        (∃ b ∈ x.width.addresses (x.address s), s.platform.admits x.kind b = false) →
        exec i s = .fault (.notInMemoryMap x.kind (x.address s))))

/-- Misaligned accesses under the policy rotate_or_ignore: a load of a word, not to R15,
gives the aligned word rotated right by eight times the low address bits; a store of a
word writes the unrotated register at the aligned address; a halfword access and LDR to
R15 are refused (rule R66). Where the aligned word aborts the access takes the Data Abort,
a store to it that overlaps program text is refused, and one the map does not admit is
stuck (rules R68, R70, R78, R307). That the aligned address is the one ABORT, the text
check and the map are asked about is log 14, the order of the text check log 15, that the
stop outside the map is a fault log 16. -/
def Obligations.MisalignedRotate : Prop :=
  ∀ (i : Instr) (x : TransferView) (s : State), transferView i = some x → x.Runs s →
    s.platform.misaligned = .rotateOrIgnore → x.width.aligned (x.address s) = false →
    let a := x.address s
    let word := a &&& 0xFFFFFFFC
    let bytes := Width.word.addresses word
    (x.width ≠ .word ∨ x.rd = 15 → exec i s = .refused .misalignedAccess) ∧
    (x.width = .word → x.rd ≠ 15 → s.platform.abortsAt x.kind word = true →
      ∃ t, exec i s = .next t ∧ AbortEntered x s t) ∧
    (x.width = .word → x.rd ≠ 15 → s.platform.abortsAt x.kind word = false →
      (x.load = false → (∃ b ∈ bytes, s.platform.admits .fetch b = true) →
        exec i s = .refused .storeIntoProgramText) ∧
      ((x.load = true ∨ ∀ b ∈ bytes, s.platform.admits .fetch b = false) →
        (∃ b ∈ bytes, s.platform.admits x.kind b = false) →
        exec i s = .fault (.notInMemoryMap x.kind word)) ∧
      (s.HasNext → Memory.wf s.mem = true → (∀ b ∈ bytes, s.platform.admits x.kind b = true) →
        (x.load = true → ∃ t, exec i s = .next t ∧ t.pc = s.pc + 4 ∧
          (∀ p, t.reg p = if visible s.cpsr.mode x.rd = some p then
              (loaded .word false word s).rotateRight (8 * (a.toNat % 4))
            else if x.am.wb = true ∧ visible s.cpsr.mode x.am.rn = some p then x.am.offAddr s
            else s.reg p) ∧
          t.cpsr = s.cpsr ∧ SystemKept s t ∧ MemoryKept s t) ∧
        (x.load = false → (∀ b ∈ bytes, s.platform.admits .fetch b = false) →
          ∃ t, exec i s = .next t ∧ t.pc = s.pc + 4 ∧
            loaded .word false word t = s.readReg x.rd ∧
            (∀ b, b ∉ bytes → t.readByte b = s.readByte b) ∧
            (∀ p, t.reg p = if x.am.wb = true ∧ visible s.cpsr.mode x.am.rn = some p then
                x.am.offAddr s else s.reg p) ∧
            t.cpsr = s.cpsr ∧ SystemKept s t)))

/-- Memory of mixed widths: after a word is written its bytes and halfwords read as its
parts; after a halfword is written its bytes read as its parts; each reads back, and every
other byte reads as before; four bytes written read as the word they make (rules R64, R65,
R80). -/
def Obligations.MixedWidths : Prop :=
  ∀ (s : State) (a v : Word) (h : BitVec 16) (b0 b1 b2 b3 : Byte), Memory.wf s.mem = true →
    ((s.writeWord a v).readWord a = v ∧
      (∀ k, k < 4 →
        (s.writeWord a v).readByte (a + BitVec.ofNat 32 k) = v.extractLsb' (8 * k) 8) ∧
      (s.writeWord a v).readHalf a = v.extractLsb' 0 16 ∧
      (s.writeWord a v).readHalf (a + 2) = v.extractLsb' 16 16 ∧
      (∀ b, b ∉ [a, a + 1, a + 2, a + 3] → (s.writeWord a v).readByte b = s.readByte b)) ∧
    ((s.writeHalf a h).readHalf a = h ∧
      (s.writeHalf a h).readByte a = h.extractLsb' 0 8 ∧
      (s.writeHalf a h).readByte (a + 1) = h.extractLsb' 8 8 ∧
      (∀ b, b ∉ [a, a + 1] → (s.writeHalf a h).readByte b = s.readByte b)) ∧
    (∀ t, t = (((s.writeByte a b0).writeByte (a + 1) b1).writeByte (a + 2) b2).writeByte
        (a + 3) b3 →
      t.readWord a = b3 ++ b2 ++ b1 ++ b0 ∧ t.readHalf a = b1 ++ b0 ∧
      t.readHalf (a + 2) = b3 ++ b2)

/-! ## Exceptions (60_exceptions.md) -/

/-- The exception table: vector, mode, R14 and the setting of F of each exception (rule R331). -/
def Obligations.ExceptionTable : Prop :=
  ∀ (s : State),
    (∀ row ∈ [(ExceptionKind.undefinedInstruction, 0x04#32, Mode.und, 4#32, false),
        (.softwareInterrupt, 0x08#32, .svc, 4#32, false),
        (.prefetchAbort, 0x0C#32, .abt, 4#32, false),
        (.dataAbort, 0x10#32, .abt, 8#32, false),
        (.irq, 0x18#32, .irq, 4#32, false),
        (.fiq, 0x1C#32, .fiq, 4#32, true)],
      (takeException row.1 s).pc = row.2.1 ∧ (takeException row.1 s).cpsr.mode = row.2.2.1 ∧
      (takeException row.1 s).readReg 14 = s.pc + row.2.2.2.1 ∧
      (takeException row.1 s).cpsr.f = (s.cpsr.f || row.2.2.2.2))

/-- Taking an exception: the mode, R14 and the SPSR of the mode, T = 0, I = 1, F only by
FIQ, the pc at the vector; N, Z, C, V, every other register, every other SPSR and memory
as before (rules R340, R347). -/
def Obligations.ExceptionEntry : Prop :=
  ∀ (k : ExceptionKind) (s : State),
    Entered k s (takeException k s) s.reg ∧
    ((takeException k s).spsr.get k.mode).toWord = s.cpsr.toWord ∧
    (∀ e, e ≠ k.mode → (takeException k s).spsr.get e = s.spsr.get e)

/-- UNDEFINED completes by its own effect, the entry at vector 0x04 in und (rule R333). -/
def Obligations.UndefinedEffect : Prop :=
  ∀ (c : Cond) (hi : BitVec 20) (lo : BitVec 4) (s : State), conditionPassed c s.cpsr = true →
    ∃ t, exec (.undefined c hi lo) s = .next t ∧ t.pc = 0x00000004 ∧ t.cpsr.mode = .und ∧
      t.readReg 14 = s.pc + 4 ∧ Entered .undefinedInstruction s t s.reg

/-- The returns of rule R342: `MOVS PC, R14` in the und handler resumes after the
instruction that trapped, `SUBS PC, R14, #4` in the irq and fiq handlers at the one that
was about to execute, and `SUBS PC, R14, #8` after a Data Abort at the aborted one; each
restores the whole CPSR. -/
def Obligations.HandlerReturn : Prop :=
  ∀ (s : State), s.cpsr.t = false → s.pc.extractLsb' 0 2 = 0 →
    (∃ t, exec (.movShiftImm .al true 15 0 .lsl 14) (takeException .undefinedInstruction s) =
        .next t ∧ t.pc = s.pc + 4 ∧ t.cpsr = s.cpsr) ∧
    (∀ k ∈ [ExceptionKind.irq, .fiq, .prefetchAbort],
      ∃ t, exec (.subImm .al true 14 15 0 4) (takeException k s) = .next t ∧ t.pc = s.pc ∧
        t.cpsr = s.cpsr) ∧
    (∃ t, exec (.subImm .al true 14 15 0 8) (takeException .dataAbort s) = .next t ∧
      t.pc = s.pc ∧ t.cpsr = s.cpsr)

/-! ## The step (00_scope.md rule R16, 60_exceptions.md) -/

/-- Interrupts at a boundary: FIQ if asserted and F = 0, else IRQ if asserted and I = 0,
each taken with R14 the address of the instruction not executed plus 4; the boundary is
the next one (rules R337 to R339, R346). That the interrupt is taken in Thumb state too is
log 13; the lists of boundaries and their index are log 8 and log 11; that the end of the
run is looked at first is log 12. -/
def Obligations.InterruptSampling : Prop :=
  ∀ (s : State), s.platform.haltAddr ≠ some s.pc →
    (s.boundary ∈ s.platform.fiqAt → s.cpsr.f = false →
      step s = .next { takeException .fiq s with boundary := s.boundary + 1 }) ∧
    (s.boundary ∉ s.platform.fiqAt ∨ s.cpsr.f = true → s.boundary ∈ s.platform.irqAt →
      s.cpsr.i = false →
      step s = .next { takeException .irq s with boundary := s.boundary + 1 })

/-- A step runs the decoded instruction: no interrupt at this boundary, the run not ended,
ARM state, the four bytes at the pc admitted and decoding to i; the step is exec of i at
that state, at the next boundary (rules R16, R64, R72, R110). That PROGRAM is the bytes of
memory admitted for fetch is log 6, the index of the boundary log 11. -/
def Obligations.StepRunsDecoded : Prop :=
  ∀ (s : State) (i : Instr), s.RunsInstruction → s.platform.abortsAt .fetch s.pc = false →
    (∀ b ∈ Width.word.addresses s.pc, s.platform.admits .fetch b = true) →
    decode (s.readByte (s.pc + 3) ++ s.readByte (s.pc + 2) ++ s.readByte (s.pc + 1) ++
      s.readByte s.pc) = .ok i →
    (∀ t, exec i s = .next t → step s = .next { t with boundary := t.boundary + 1 }) ∧
    (∀ f, exec i s = .fault f → step s = .fault f) ∧
    (∀ r, exec i s = .refused r → step s = .refused r)

/-- Where no instruction is executed: a Prefetch Abort at vector 0x0C with R14_abt =
instr_addr + 4, whatever stands at the pc; a fetch the map does not admit is stuck; a word
that does not decode is refused, by the name of rule R114 where its condition field is 1111
and of rule R112 elsewhere; Thumb state is refused; the run ends at HALT_ADDR (rules R37,
R68, R112, R114, R335, R389). That the end of the run is a fault, looked at before an
interrupt, is log 12; that the stop outside the map is a fault is log 16. -/
def Obligations.StepWithoutInstruction : Prop :=
  ∀ (s : State),
    (s.platform.haltAddr = some s.pc → step s = .fault .runEnded) ∧
    (s.RunsInstruction → s.platform.abortsAt .fetch s.pc = true →
      step s = .next { takeException .prefetchAbort s with boundary := s.boundary + 1 }) ∧
    (s.RunsInstruction → s.platform.abortsAt .fetch s.pc = false →
      (∃ b ∈ Width.word.addresses s.pc, s.platform.admits .fetch b = false) →
      step s = .fault (.notInMemoryMap .fetch s.pc)) ∧
    (s.RunsInstruction → s.platform.abortsAt .fetch s.pc = false →
      (∀ b ∈ Width.word.addresses s.pc, s.platform.admits .fetch b = true) →
      let w : Word := s.readByte (s.pc + 3) ++ s.readByte (s.pc + 2) ++ s.readByte (s.pc + 1) ++
        s.readByte s.pc
      ∀ e, decode w = .error e →
        step s = .refused (if bits w 28 4 = 0b1111#4 then .cond1111 else .encodingNotInScope)) ∧
    (s.platform.haltAddr ≠ some s.pc → s.NoInterrupt → s.cpsr.t = true →
      step s = .refused .thumbState)

/-- The word the host places is fetched and executed by the next step; where it goes is
the model's choice, log 6. -/
def Obligations.PlacedWordRuns : Prop :=
  ∀ (s : State) (w : Word) (i : Instr), s.RunsInstruction → Memory.wf s.mem = true →
    s.platform.abortsAt .fetch s.pc = false → s.pc.toNat + 4 ≤ 2 ^ 32 → decode w = .ok i →
    step (s.withFetchWord 32 w.toNat) = nextBoundary (exec i (s.withFetchWord 32 w.toNat))

/-! ## Invariants of every step -/

/-- Every step keeps the invariant: memory in its canonical form (log 4), and the pc word
aligned in ARM state (rules R26, R67, R136). -/
def Obligations.StepKeepsInvariant : Prop :=
  ∀ s t : State, s.Inv → step s = .next t → t.Inv

/-- The invariant holds at reset (rules R26, R43); that memory lists nothing there is log 4. -/
def Obligations.ResetInvariant : Prop := State.reset.Inv

/-- The program text is fixed for a run: no step changes a byte admitted for fetch, nor
the platform; each is the next boundary (rules R44, R78, R388). That PROGRAM is the bytes of
memory admitted for fetch is log 6, the index of the boundary log 11. -/
def Obligations.ProgramTextFixed : Prop :=
  ∀ s t : State, Memory.wf s.mem = true → step s = .next t →
    t.platform = s.platform ∧ t.boundary = s.boundary + 1 ∧
    ∀ a, s.platform.admits .fetch a = true → t.readByte a = s.readByte a

/-- User mode is left only by an exception: the step enters at a vector, in the mode and
with the SPSR of that exception (rules R276, R350). -/
def Obligations.UserModeLeftByException : Prop :=
  ∀ s t : State, s.cpsr.mode = .usr → step s = .next t → t.cpsr.mode ≠ .usr →
    ∃ k : ExceptionKind, t.pc = Config.vectorBase + k.vector ∧ t.cpsr.mode = k.mode.toMode ∧
      t.cpsr.i = true ∧ t.cpsr.t = false ∧ t.spsr.get k.mode = Spsr.ofCpsr s.cpsr

/-- In User mode I and F change by no step that stays in User mode (rules R32, R274). -/
def Obligations.UserModeKeepsMasks : Prop :=
  ∀ s t : State, s.cpsr.mode = .usr → step s = .next t → t.cpsr.mode = .usr →
    t.cpsr.i = s.cpsr.i ∧ t.cpsr.f = s.cpsr.f

/-- No step changes a general register of another mode's bank but the R14 of the mode it
enters (rules R24, R39, R340). -/
def Obligations.OtherBanksKept : Prop :=
  ∀ s t : State, step s = .next t → ∀ p : PhysReg,
    (∀ i, visible s.cpsr.mode i ≠ some p) → p ≠ linkReg t.cpsr.mode → t.reg p = s.reg p

/-- An SPSR changes in two ways only: by the entry of an exception, which saves the CPSR in
the SPSR of the mode entered, or by an MSR to the SPSR executed in that SPSR's own mode,
which leaves the CPSR as it was (rules R36, R39, R340). -/
def Obligations.SpsrsKept : Prop :=
  ∀ s t : State, step s = .next t → ∀ e : ExcMode, t.spsr.get e ≠ s.spsr.get e →
    (t.spsr.get e = Spsr.ofCpsr s.cpsr ∧
      ∃ k : ExceptionKind, k.mode = e ∧ t.cpsr.mode = e.toMode ∧
        t.pc = Config.vectorBase + k.vector) ∨
    (s.cpsr.mode = e.toMode ∧ t.cpsr = s.cpsr ∧
      ∃ c mask, (∃ rotate imm8, decode (s.readWord s.pc) = .ok (.msrImm c .spsr mask rotate imm8)) ∨
        ∃ rm, decode (s.readWord s.pc) = .ok (.msrReg c .spsr mask rm))
end

