-- ==== Sys2Proof/Laws/Encoding.lean ====
section
/-!
SUPPORT. The fields of each encoding format, read back from the word it writes (rules R93
to R107, R113).
-/

namespace Sys2Proof

/-! ## Bits of a word put together from parts -/

theorem bits_append_high {a b : Nat} (x : BitVec a) (y : BitVec b) (lo len : Nat) (h : b ≤ lo) :
    (x ++ y).extractLsb' lo len = x.extractLsb' (lo - b) len :=
  BitVec.extractLsb'_append_eq_of_le h

theorem bits_append_low {a b : Nat} (x : BitVec a) (y : BitVec b) (lo len : Nat)
    (h : lo + len ≤ b) : (x ++ y).extractLsb' lo len = y.extractLsb' lo len :=
  BitVec.extractLsb'_append_eq_of_add_le h

theorem bit_append_high {a b : Nat} (x : BitVec a) (y : BitVec b) (i : Nat) (h : b ≤ i) :
    (x ++ y).getLsbD i = x.getLsbD (i - b) := by
  rw [BitVec.getLsbD_append]; simp [Nat.not_lt.mpr h]

theorem bit_append_low {a b : Nat} (x : BitVec a) (y : BitVec b) (i : Nat) (h : i < b) :
    (x ++ y).getLsbD i = y.getLsbD i := by
  rw [BitVec.getLsbD_append]; simp [h]

theorem bit_ofBool (b : Bool) : (BitVec.ofBool b).getLsbD 0 = b := by cases b <;> rfl

/-! ## Fields that become names -/

theorem Cond.ofCode_code (c : Cond) : Cond.ofCode c.code = some c := by cases c <;> rfl

theorem ShiftType.ofCode_code (sh : ShiftType) : ShiftType.ofCode sh.code = sh := by
  cases sh <;> rfl

theorem PsrSel.ofBit_toBit (p : PsrSel) : PsrSel.ofBit p.toBit = p := by cases p <;> rfl

/-! ## The formats -/

/-- The fields of the words of rule R93. -/
theorem encDpImm_fields (c : Cond) (op : BitVec 4) (sf : Bool) (rn rd : Reg) (rotate : BitVec 4)
    (imm8 : BitVec 8) :
    let W := encDpImm c op sf rn rd rotate imm8
    bits W 28 4 = c.code ∧ bits W 25 3 = 0b001#3 ∧ bits W 23 2 = op.extractLsb' 2 2 ∧
    bits W 21 4 = op ∧ bit W 20 = sf ∧ bits W 16 4 = rn ∧ bits W 12 4 = rd ∧
    bits W 8 4 = rotate ∧ bits W 0 8 = imm8 := by
  intro W
  and_intros <;>
    (repeat first
      | refine (bits_append_high _ _ _ _ (by decide)).trans ?_
      | refine (bit_append_high _ _ _ (by decide)).trans ?_) <;>
    (try first
      | refine (bits_append_low _ _ _ _ (by decide)).trans ?_
      | refine (bit_append_low _ _ _ (by decide)).trans ?_) <;>
    first
      | exact BitVec.extractLsb'_eq_self
      | exact bit_ofBool _
      | rfl

/-- The fields of the words of rule R94. -/
theorem encDpShiftImm_fields (c : Cond) (op : BitVec 4) (sf : Bool) (rn rd : Reg) (shiftImm : BitVec 5)
    (sh : ShiftType) (rm : Reg) :
    let W := encDpShiftImm c op sf rn rd shiftImm sh rm
    bits W 28 4 = c.code ∧ bits W 25 3 = 0b000#3 ∧ bits W 23 2 = op.extractLsb' 2 2 ∧
    bits W 21 4 = op ∧ bit W 20 = sf ∧ bits W 16 4 = rn ∧ bits W 12 4 = rd ∧
    bits W 7 5 = shiftImm ∧ bits W 5 2 = sh.code ∧ bit W 4 = false ∧ bits W 0 4 = rm := by
  intro W
  and_intros <;>
    (repeat first
      | refine (bits_append_high _ _ _ _ (by decide)).trans ?_
      | refine (bit_append_high _ _ _ (by decide)).trans ?_) <;>
    (try first
      | refine (bits_append_low _ _ _ _ (by decide)).trans ?_
      | refine (bit_append_low _ _ _ (by decide)).trans ?_) <;>
    first
      | exact BitVec.extractLsb'_eq_self
      | exact bit_ofBool _
      | rfl

/-- The fields of the words of rule R95. -/
theorem encDpShiftReg_fields (c : Cond) (op : BitVec 4) (sf : Bool) (rn rd rs : Reg) (sh : ShiftType) (rm : Reg) :
    let W := encDpShiftReg c op sf rn rd rs sh rm
    bits W 28 4 = c.code ∧ bits W 25 3 = 0b000#3 ∧ bits W 23 2 = op.extractLsb' 2 2 ∧
    bits W 21 4 = op ∧ bit W 20 = sf ∧ bits W 16 4 = rn ∧ bits W 12 4 = rd ∧ bits W 8 4 = rs ∧
    bit W 7 = false ∧ bits W 5 2 = sh.code ∧ bit W 4 = true ∧ bits W 0 4 = rm := by
  intro W
  and_intros <;>
    (repeat first
      | refine (bits_append_high _ _ _ _ (by decide)).trans ?_
      | refine (bit_append_high _ _ _ (by decide)).trans ?_) <;>
    (try first
      | refine (bits_append_low _ _ _ _ (by decide)).trans ?_
      | refine (bit_append_low _ _ _ (by decide)).trans ?_) <;>
    first
      | exact BitVec.extractLsb'_eq_self
      | exact bit_ofBool _
      | rfl

/-- The fields of the words of rules R98, R99. -/
theorem encMul_fields (c : Cond) (code : BitVec 3) (sf : Bool) (hi lo rs rm : Reg) :
    let W := encMul c code sf hi lo rs rm
    bits W 28 4 = c.code ∧ bits W 25 3 = 0b000#3 ∧ bit W 24 = false ∧ bits W 21 3 = code ∧
    bit W 20 = sf ∧ bits W 16 4 = hi ∧ bits W 12 4 = lo ∧ bits W 8 4 = rs ∧ bit W 7 = true ∧
    bits W 5 2 = 0b00#2 ∧ bit W 4 = true ∧ bits W 0 4 = rm := by
  intro W
  and_intros <;>
    (repeat first
      | refine (bits_append_high _ _ _ _ (by decide)).trans ?_
      | refine (bit_append_high _ _ _ (by decide)).trans ?_) <;>
    (try first
      | refine (bits_append_low _ _ _ _ (by decide)).trans ?_
      | refine (bit_append_low _ _ _ (by decide)).trans ?_) <;>
    first
      | exact BitVec.extractLsb'_eq_self
      | exact bit_ofBool _
      | rfl

/-- The fields of the words of rule R100. -/
theorem encBranch_fields (c : Cond) (l : Bool) (imm24 : BitVec 24) :
    let W := encBranch c l imm24
    bits W 28 4 = c.code ∧ bits W 25 3 = 0b101#3 ∧ bit W 24 = l ∧ bits W 0 24 = imm24 := by
  intro W
  and_intros <;>
    (repeat first
      | refine (bits_append_high _ _ _ _ (by decide)).trans ?_
      | refine (bit_append_high _ _ _ (by decide)).trans ?_) <;>
    (try first
      | refine (bits_append_low _ _ _ _ (by decide)).trans ?_
      | refine (bit_append_low _ _ _ (by decide)).trans ?_) <;>
    first
      | exact BitVec.extractLsb'_eq_self
      | exact bit_ofBool _

/-- The fields of the words of rule R101. -/
theorem encBx_fields (c : Cond) (op : BitVec 4) (rm : Reg) :
    let W := encBx c op rm
    bits W 28 4 = c.code ∧ bits W 25 3 = 0b000#3 ∧ bits W 23 2 = 0b10#2 ∧ bit W 20 = false ∧
    bits W 20 8 = 0b00010010#8 ∧ bits W 8 12 = 0b111111111111#12 ∧ bit W 7 = op.getLsbD 3 ∧
    bits W 4 4 = op ∧ bit W 4 = op.getLsbD 0 ∧ bits W 0 4 = rm := by
  intro W
  and_intros <;>
    (repeat first
      | refine (bits_append_high _ _ _ _ (by decide)).trans ?_
      | refine (bit_append_high _ _ _ (by decide)).trans ?_) <;>
    (try first
      | refine (bits_append_low _ _ _ _ (by decide)).trans ?_
      | refine (bit_append_low _ _ _ (by decide)).trans ?_) <;>
    first
      | exact BitVec.extractLsb'_eq_self
      | rfl

/-- The fields of the words of rule R102. -/
theorem encBlxLabel_fields (h : Bool) (imm24 : BitVec 24) :
    let W := encBlxLabel h imm24
    bits W 28 4 = 0b1111#4 ∧ bits W 25 3 = 0b101#3 ∧ bit W 24 = h ∧ bits W 0 24 = imm24 := by
  intro W
  and_intros <;>
    (repeat first
      | refine (bits_append_high _ _ _ _ (by decide)).trans ?_
      | refine (bit_append_high _ _ _ (by decide)).trans ?_) <;>
    (try first
      | refine (bits_append_low _ _ _ _ (by decide)).trans ?_
      | refine (bit_append_low _ _ _ (by decide)).trans ?_) <;>
    first
      | exact BitVec.extractLsb'_eq_self
      | exact bit_ofBool _

/-- The fields of the words of rule R103. -/
theorem encMrs_fields (c : Cond) (psr : PsrSel) (rd : Reg) :
    let W := encMrs c psr rd
    bits W 28 4 = c.code ∧ bits W 25 3 = 0b000#3 ∧ bits W 23 2 = 0b10#2 ∧ bit W 22 = psr.toBit ∧
    bit W 21 = false ∧ bit W 20 = false ∧ bits W 16 4 = 0b1111#4 ∧ bits W 12 4 = rd ∧
    bits W 0 12 = 0b000000000000#12 ∧ bit W 4 = false := by
  intro W
  and_intros <;>
    (repeat first
      | refine (bits_append_high _ _ _ _ (by decide)).trans ?_
      | refine (bit_append_high _ _ _ (by decide)).trans ?_) <;>
    (try first
      | refine (bits_append_low _ _ _ _ (by decide)).trans ?_
      | refine (bit_append_low _ _ _ (by decide)).trans ?_) <;>
    first
      | exact BitVec.extractLsb'_eq_self
      | exact bit_ofBool _
      | rfl

/-- The fields of the words of rule R104. -/
theorem encMsrImm_fields (c : Cond) (psr : PsrSel) (fieldMask rotate : BitVec 4) (imm8 : BitVec 8) :
    let W := encMsrImm c psr fieldMask rotate imm8
    bits W 28 4 = c.code ∧ bits W 25 3 = 0b001#3 ∧ bits W 23 2 = 0b10#2 ∧ bit W 22 = psr.toBit ∧
    bit W 21 = true ∧ bit W 20 = false ∧ bits W 16 4 = fieldMask ∧ bits W 12 4 = 0b1111#4 ∧
    bits W 8 4 = rotate ∧ bits W 0 8 = imm8 := by
  intro W
  and_intros <;>
    (repeat first
      | refine (bits_append_high _ _ _ _ (by decide)).trans ?_
      | refine (bit_append_high _ _ _ (by decide)).trans ?_) <;>
    (try first
      | refine (bits_append_low _ _ _ _ (by decide)).trans ?_
      | refine (bit_append_low _ _ _ (by decide)).trans ?_) <;>
    first
      | exact BitVec.extractLsb'_eq_self
      | exact bit_ofBool _
      | rfl

/-- The fields of the words of rule R105. -/
theorem encMsrReg_fields (c : Cond) (psr : PsrSel) (fieldMask : BitVec 4) (rm : Reg) :
    let W := encMsrReg c psr fieldMask rm
    bits W 28 4 = c.code ∧ bits W 25 3 = 0b000#3 ∧ bits W 23 2 = 0b10#2 ∧ bit W 22 = psr.toBit ∧
    bit W 21 = true ∧ bit W 20 = false ∧ bits W 16 4 = fieldMask ∧ bits W 12 4 = 0b1111#4 ∧
    bits W 4 8 = 0b00000000#8 ∧ bit W 4 = false ∧ bits W 0 4 = rm := by
  intro W
  and_intros <;>
    (repeat first
      | refine (bits_append_high _ _ _ _ (by decide)).trans ?_
      | refine (bit_append_high _ _ _ (by decide)).trans ?_) <;>
    (try first
      | refine (bits_append_low _ _ _ _ (by decide)).trans ?_
      | refine (bit_append_low _ _ _ (by decide)).trans ?_) <;>
    first
      | exact BitVec.extractLsb'_eq_self
      | exact bit_ofBool _
      | rfl

/-- The fields of the words of rule R106. -/
theorem encLsImm_fields (c : Cond) (p u b w l : Bool) (rn rd : Reg) (imm12 : BitVec 12) :
    let W := encLsImm c p u b w l rn rd imm12
    bits W 28 4 = c.code ∧ bits W 25 3 = 0b010#3 ∧ bit W 24 = p ∧ bit W 23 = u ∧ bit W 22 = b ∧
    bit W 21 = w ∧ bit W 20 = l ∧ bits W 16 4 = rn ∧ bits W 12 4 = rd ∧ bits W 0 12 = imm12 := by
  intro W
  and_intros <;>
    (repeat first
      | refine (bits_append_high _ _ _ _ (by decide)).trans ?_
      | refine (bit_append_high _ _ _ (by decide)).trans ?_) <;>
    (try first
      | refine (bits_append_low _ _ _ _ (by decide)).trans ?_
      | refine (bit_append_low _ _ _ (by decide)).trans ?_) <;>
    first
      | exact BitVec.extractLsb'_eq_self
      | exact bit_ofBool _

/-- The fields of the words of rule R106. -/
theorem encLsReg_fields (c : Cond) (p u b w l : Bool) (rn rd : Reg) (shiftImm : BitVec 5) (sh : ShiftType)
    (rm : Reg) :
    let W := encLsReg c p u b w l rn rd shiftImm sh rm
    bits W 28 4 = c.code ∧ bits W 25 3 = 0b011#3 ∧ bit W 24 = p ∧ bit W 23 = u ∧ bit W 22 = b ∧
    bit W 21 = w ∧ bit W 20 = l ∧ bits W 16 4 = rn ∧ bits W 12 4 = rd ∧ bits W 7 5 = shiftImm ∧
    bits W 5 2 = sh.code ∧ bit W 4 = false ∧ bits W 0 4 = rm := by
  intro W
  and_intros <;>
    (repeat first
      | refine (bits_append_high _ _ _ _ (by decide)).trans ?_
      | refine (bit_append_high _ _ _ (by decide)).trans ?_) <;>
    (try first
      | refine (bits_append_low _ _ _ _ (by decide)).trans ?_
      | refine (bit_append_low _ _ _ (by decide)).trans ?_) <;>
    first
      | exact BitVec.extractLsb'_eq_self
      | exact bit_ofBool _
      | rfl

/-- The fields of the words of rule R107. -/
theorem encHalf_fields (c : Cond) (p u i w l : Bool) (rn rd : Reg) (immH : BitVec 4) (sh : BitVec 2)
    (immL : BitVec 4) :
    let W := encHalf c p u i w l rn rd immH sh immL
    bits W 28 4 = c.code ∧ bits W 25 3 = 0b000#3 ∧ bit W 24 = p ∧ bit W 23 = u ∧ bit W 22 = i ∧
    bit W 21 = w ∧ bit W 20 = l ∧ bits W 16 4 = rn ∧ bits W 12 4 = rd ∧ bits W 8 4 = immH ∧
    bit W 7 = true ∧ bits W 5 2 = sh ∧ bit W 4 = true ∧ bits W 0 4 = immL := by
  intro W
  and_intros <;>
    (repeat first
      | refine (bits_append_high _ _ _ _ (by decide)).trans ?_
      | refine (bit_append_high _ _ _ (by decide)).trans ?_) <;>
    (try first
      | refine (bits_append_low _ _ _ _ (by decide)).trans ?_
      | refine (bit_append_low _ _ _ (by decide)).trans ?_) <;>
    first
      | exact BitVec.extractLsb'_eq_self
      | exact bit_ofBool _
      | rfl

/-- The fields of the words of rule R113. -/
theorem encUndefined_fields (c : Cond) (hi : BitVec 20) (lo : BitVec 4) :
    let W := encUndefined c hi lo
    bits W 28 4 = c.code ∧ bits W 25 3 = 0b011#3 ∧ bits W 5 20 = hi ∧ bit W 4 = true ∧
    bits W 0 4 = lo := by
  intro W
  and_intros <;>
    (repeat first
      | refine (bits_append_high _ _ _ _ (by decide)).trans ?_
      | refine (bit_append_high _ _ _ (by decide)).trans ?_) <;>
    (try first
      | refine (bits_append_low _ _ _ _ (by decide)).trans ?_
      | refine (bit_append_low _ _ _ (by decide)).trans ?_) <;>
    first
      | exact BitVec.extractLsb'_eq_self
      | rfl

end Sys2Proof
end

