-- ==== Sys2Proof/Laws/State.lean ====
section
/-!
SUPPORT. One lemma per field per update of the state, so that no proof unfolds a
record update, and what the register file reads after a write.
-/

namespace Sys2Proof.Machine

/-! ## Registers -/

/-- The register at each place: `PhysReg.index` loses nothing. -/
def PhysReg.ofIndex (i : Fin 30) : PhysReg :=
  match i.val with
  | 0 => .r0 | 1 => .r1 | 2 => .r2 | 3 => .r3 | 4 => .r4 | 5 => .r5 | 6 => .r6 | 7 => .r7
  | 8 => .r8 | 9 => .r9 | 10 => .r10 | 11 => .r11 | 12 => .r12 | 13 => .r13 | 14 => .r14
  | 15 => .r8_fiq | 16 => .r9_fiq | 17 => .r10_fiq | 18 => .r11_fiq | 19 => .r12_fiq
  | 20 => .r13_fiq | 21 => .r14_fiq | 22 => .r13_irq | 23 => .r14_irq
  | 24 => .r13_svc | 25 => .r14_svc | 26 => .r13_abt | 27 => .r14_abt
  | 28 => .r13_und | _ => .r14_und

theorem PhysReg.ofIndex_index (p : PhysReg) : PhysReg.ofIndex p.index = p := by
  cases p <;> rfl

theorem PhysReg.index_inj {p q : PhysReg} (h : p.index = q.index) : p = q := by
  rw [← PhysReg.ofIndex_index p, h, PhysReg.ofIndex_index]

theorem PhysReg.index_val_eq {p q : PhysReg} : p.index.val = q.index.val ↔ p = q :=
  ⟨fun h => PhysReg.index_inj (Fin.ext h), fun h => h ▸ rfl⟩

/-- What a register reads after a write of a register. -/
theorem State.reg_setReg (s : State) (p q : PhysReg) (v : Word) :
    (s.setReg p v).reg q = if p = q then v else s.reg q := by
  simp only [State.setReg, State.reg, Fin.getElem_fin, Vector.getElem_set,
    PhysReg.index_val_eq]

@[simp] theorem State.setReg_pc (s : State) (p : PhysReg) (v : Word) :
    (s.setReg p v).pc = s.pc := rfl
@[simp] theorem State.setReg_cpsr (s : State) (p : PhysReg) (v : Word) :
    (s.setReg p v).cpsr = s.cpsr := rfl
@[simp] theorem State.setReg_spsr (s : State) (p : PhysReg) (v : Word) :
    (s.setReg p v).spsr = s.spsr := rfl
@[simp] theorem State.setReg_mem (s : State) (p : PhysReg) (v : Word) :
    (s.setReg p v).mem = s.mem := rfl
@[simp] theorem State.setReg_boundary (s : State) (p : PhysReg) (v : Word) :
    (s.setReg p v).boundary = s.boundary := rfl
@[simp] theorem State.setReg_platform (s : State) (p : PhysReg) (v : Word) :
    (s.setReg p v).platform = s.platform := rfl
@[simp] theorem State.setReg_readByte (s : State) (p : PhysReg) (v a : Word) :
    (s.setReg p v).readByte a = s.readByte a := rfl

/-- R15 is the one register number that names no general register. -/
theorem visible_eq_none {m : Mode} {i : Reg} : visible m i = none ↔ i = 15 := by
  have h : ∀ i : Reg, visible m i = none ↔ i = 15 := by cases m <;> decide +kernel
  exact h i

/-- R14 is the link register of the mode. -/
theorem visible_link (m : Mode) : visible m 14 = some (linkReg m) := rfl

/-- Two numbers name one register only if they are equal. -/
theorem visible_inj {m : Mode} {i j : Reg} (hi : i ≠ 15) (h : visible m i = visible m j) :
    i = j := by
  have key : ∀ i j : Reg, i ≠ 15 → visible m i = visible m j → i = j := by
    cases m <;> decide +kernel
  exact key i j hi h

/-- What a register reads after a write by number; a write of R15 is no write of one. -/
theorem State.reg_writeReg (s : State) (i : Reg) (v : Word) (q : PhysReg) :
    (s.writeReg i v).reg q = if visible s.cpsr.mode i = some q then v else s.reg q := by
  unfold State.writeReg
  cases h : visible s.cpsr.mode i with
  | none => simp [State.reg]
  | some p => simp [State.reg_setReg]

theorem State.writeReg_pc (s : State) {i : Reg} (v : Word) (h : i ≠ 15) :
    (s.writeReg i v).pc = s.pc := by
  unfold State.writeReg
  split
  · rfl
  · rename_i hv
    exact absurd (visible_eq_none.mp hv) h

@[simp] theorem State.writeReg_cpsr (s : State) (i : Reg) (v : Word) :
    (s.writeReg i v).cpsr = s.cpsr := by unfold State.writeReg; split <;> rfl
@[simp] theorem State.writeReg_spsr (s : State) (i : Reg) (v : Word) :
    (s.writeReg i v).spsr = s.spsr := by unfold State.writeReg; split <;> rfl
@[simp] theorem State.writeReg_mem (s : State) (i : Reg) (v : Word) :
    (s.writeReg i v).mem = s.mem := by unfold State.writeReg; split <;> rfl
@[simp] theorem State.writeReg_boundary (s : State) (i : Reg) (v : Word) :
    (s.writeReg i v).boundary = s.boundary := by unfold State.writeReg; split <;> rfl
@[simp] theorem State.writeReg_platform (s : State) (i : Reg) (v : Word) :
    (s.writeReg i v).platform = s.platform := by unfold State.writeReg; split <;> rfl
@[simp] theorem State.writeReg_readByte (s : State) (i : Reg) (v a : Word) :
    (s.writeReg i v).readByte a = s.readByte a := by simp [State.readByte]

/-- R15 reads the pc plus 8, the others their register. -/
theorem State.readReg_fifteen (s : State) : s.readReg 15 = s.pc + 8 := rfl

theorem State.readReg_of_visible {s : State} {i : Reg} {p : PhysReg}
    (h : visible s.cpsr.mode i = some p) : s.readReg i = s.reg p := by
  simp [State.readReg, h]

/-! ## Records of the other fields -/

/-- A register reads `regs` and nothing else. -/
theorem State.reg_of_regs {s t : State} (h : t.regs = s.regs) (p : PhysReg) :
    t.reg p = s.reg p := by simp [State.reg, h]

/-- A byte reads `mem` and nothing else. -/
theorem State.readByte_of_mem {s t : State} (h : t.mem = s.mem) (a : Word) :
    t.readByte a = s.readByte a := by simp [State.readByte, h]

@[simp] theorem State.reg_with_pc (s : State) (v : Word) (p : PhysReg) :
    ({ s with pc := v } : State).reg p = s.reg p := rfl
@[simp] theorem State.reg_with_cpsr (s : State) (c : Cpsr) (p : PhysReg) :
    ({ s with cpsr := c } : State).reg p = s.reg p := rfl
@[simp] theorem State.reg_with_cpsr_pc (s : State) (c : Cpsr) (v : Word) (p : PhysReg) :
    ({ s with cpsr := c, pc := v } : State).reg p = s.reg p := rfl
@[simp] theorem State.reg_with_spsr (s : State) (b : SpsrBank) (p : PhysReg) :
    ({ s with spsr := b } : State).reg p = s.reg p := rfl
@[simp] theorem State.readByte_with_pc (s : State) (v a : Word) :
    ({ s with pc := v } : State).readByte a = s.readByte a := rfl
@[simp] theorem State.readByte_with_cpsr (s : State) (c : Cpsr) (a : Word) :
    ({ s with cpsr := c } : State).readByte a = s.readByte a := rfl
@[simp] theorem State.readByte_with_cpsr_pc (s : State) (c : Cpsr) (v a : Word) :
    ({ s with cpsr := c, pc := v } : State).readByte a = s.readByte a := rfl
@[simp] theorem State.readByte_with_spsr (s : State) (b : SpsrBank) (a : Word) :
    ({ s with spsr := b } : State).readByte a = s.readByte a := rfl

/-! ## Flags -/

@[simp] theorem State.setFlags_regs (s : State) (sf : Bool) (o : AluOut) :
    (s.setFlags sf o).regs = s.regs := by unfold State.setFlags; split <;> rfl
@[simp] theorem State.setFlags_reg (s : State) (sf : Bool) (o : AluOut) (p : PhysReg) :
    (s.setFlags sf o).reg p = s.reg p := by simp [State.reg]
@[simp] theorem State.setFlags_pc (s : State) (sf : Bool) (o : AluOut) :
    (s.setFlags sf o).pc = s.pc := by unfold State.setFlags; split <;> rfl
@[simp] theorem State.setFlags_spsr (s : State) (sf : Bool) (o : AluOut) :
    (s.setFlags sf o).spsr = s.spsr := by unfold State.setFlags; split <;> rfl
@[simp] theorem State.setFlags_mem (s : State) (sf : Bool) (o : AluOut) :
    (s.setFlags sf o).mem = s.mem := by unfold State.setFlags; split <;> rfl
@[simp] theorem State.setFlags_boundary (s : State) (sf : Bool) (o : AluOut) :
    (s.setFlags sf o).boundary = s.boundary := by unfold State.setFlags; split <;> rfl
@[simp] theorem State.setFlags_platform (s : State) (sf : Bool) (o : AluOut) :
    (s.setFlags sf o).platform = s.platform := by unfold State.setFlags; split <;> rfl
@[simp] theorem State.setFlags_readByte (s : State) (sf : Bool) (o : AluOut) (a : Word) :
    (s.setFlags sf o).readByte a = s.readByte a := by simp [State.readByte]
theorem State.setFlags_cpsr (s : State) (sf : Bool) (o : AluOut) :
    (s.setFlags sf o).cpsr = if sf = true then s.cpsr.setFlags o else s.cpsr := by
  unfold State.setFlags; split <;> rfl

@[simp] theorem State.setMulFlags_regs (s : State) (sf : Bool) (v : Word) :
    (s.setMulFlags sf v).regs = s.regs := by unfold State.setMulFlags; split <;> rfl
@[simp] theorem State.setMulFlags_reg (s : State) (sf : Bool) (v : Word) (p : PhysReg) :
    (s.setMulFlags sf v).reg p = s.reg p := by simp [State.reg]
@[simp] theorem State.setMulFlags_pc (s : State) (sf : Bool) (v : Word) :
    (s.setMulFlags sf v).pc = s.pc := by unfold State.setMulFlags; split <;> rfl
@[simp] theorem State.setMulFlags_spsr (s : State) (sf : Bool) (v : Word) :
    (s.setMulFlags sf v).spsr = s.spsr := by unfold State.setMulFlags; split <;> rfl
@[simp] theorem State.setMulFlags_mem (s : State) (sf : Bool) (v : Word) :
    (s.setMulFlags sf v).mem = s.mem := by unfold State.setMulFlags; split <;> rfl
@[simp] theorem State.setMulFlags_boundary (s : State) (sf : Bool) (v : Word) :
    (s.setMulFlags sf v).boundary = s.boundary := by unfold State.setMulFlags; split <;> rfl
@[simp] theorem State.setMulFlags_platform (s : State) (sf : Bool) (v : Word) :
    (s.setMulFlags sf v).platform = s.platform := by unfold State.setMulFlags; split <;> rfl
@[simp] theorem State.setMulFlags_readByte (s : State) (sf : Bool) (v a : Word) :
    (s.setMulFlags sf v).readByte a = s.readByte a := by simp [State.readByte]
theorem State.setMulFlags_cpsr (s : State) (sf : Bool) (v : Word) :
    (s.setMulFlags sf v).cpsr =
      if sf = true then
        { s.cpsr with
          n := v.getLsbD 31, z := decide (v = 0), c := Config.mulCarry s.boundary }
      else s.cpsr := by
  unfold State.setMulFlags; split <;> rfl

@[simp] theorem State.setLongFlags_regs (s : State) (sf : Bool) (v : BitVec 64) :
    (s.setLongFlags sf v).regs = s.regs := by unfold State.setLongFlags; split <;> rfl
@[simp] theorem State.setLongFlags_reg (s : State) (sf : Bool) (v : BitVec 64) (p : PhysReg) :
    (s.setLongFlags sf v).reg p = s.reg p := by simp [State.reg]
@[simp] theorem State.setLongFlags_pc (s : State) (sf : Bool) (v : BitVec 64) :
    (s.setLongFlags sf v).pc = s.pc := by unfold State.setLongFlags; split <;> rfl
@[simp] theorem State.setLongFlags_spsr (s : State) (sf : Bool) (v : BitVec 64) :
    (s.setLongFlags sf v).spsr = s.spsr := by unfold State.setLongFlags; split <;> rfl
@[simp] theorem State.setLongFlags_mem (s : State) (sf : Bool) (v : BitVec 64) :
    (s.setLongFlags sf v).mem = s.mem := by unfold State.setLongFlags; split <;> rfl
@[simp] theorem State.setLongFlags_boundary (s : State) (sf : Bool) (v : BitVec 64) :
    (s.setLongFlags sf v).boundary = s.boundary := by
  unfold State.setLongFlags; split <;> rfl
@[simp] theorem State.setLongFlags_platform (s : State) (sf : Bool) (v : BitVec 64) :
    (s.setLongFlags sf v).platform = s.platform := by
  unfold State.setLongFlags; split <;> rfl
@[simp] theorem State.setLongFlags_readByte (s : State) (sf : Bool) (v : BitVec 64) (a : Word) :
    (s.setLongFlags sf v).readByte a = s.readByte a := by simp [State.readByte]
theorem State.setLongFlags_cpsr (s : State) (sf : Bool) (v : BitVec 64) :
    (s.setLongFlags sf v).cpsr =
      if sf = true then
        { s.cpsr with
          n := v.getLsbD 63, z := decide (v = 0), c := Config.mulCarry s.boundary
          v := Config.mulOverflow s.boundary }
      else s.cpsr := by
  unfold State.setLongFlags; split <;> rfl

/-! ## Write-back -/

theorem Addressing.writeBack_reg (am : Addressing) (v : Word) (s : State) (p : PhysReg) :
    (am.writeBack v s).reg p =
      if am.wb = true ∧ visible s.cpsr.mode am.rn = some p then v else s.reg p := by
  unfold Addressing.writeBack
  cases am.wb <;> simp [State.reg_writeReg]

theorem Addressing.writeBack_pc (am : Addressing) (v : Word) (s : State)
    (h : am.wb = true → am.rn ≠ 15) : (am.writeBack v s).pc = s.pc := by
  unfold Addressing.writeBack
  split
  · next hw => exact State.writeReg_pc s v (h hw)
  · rfl

@[simp] theorem Addressing.writeBack_cpsr (am : Addressing) (v : Word) (s : State) :
    (am.writeBack v s).cpsr = s.cpsr := by unfold Addressing.writeBack; split <;> simp
@[simp] theorem Addressing.writeBack_spsr (am : Addressing) (v : Word) (s : State) :
    (am.writeBack v s).spsr = s.spsr := by unfold Addressing.writeBack; split <;> simp
@[simp] theorem Addressing.writeBack_mem (am : Addressing) (v : Word) (s : State) :
    (am.writeBack v s).mem = s.mem := by unfold Addressing.writeBack; split <;> simp
@[simp] theorem Addressing.writeBack_boundary (am : Addressing) (v : Word) (s : State) :
    (am.writeBack v s).boundary = s.boundary := by unfold Addressing.writeBack; split <;> simp
@[simp] theorem Addressing.writeBack_platform (am : Addressing) (v : Word) (s : State) :
    (am.writeBack v s).platform = s.platform := by unfold Addressing.writeBack; split <;> simp
@[simp] theorem Addressing.writeBack_readByte (am : Addressing) (v : Word) (s : State) (a : Word) :
    (am.writeBack v s).readByte a = s.readByte a := by simp [State.readByte]

/-! ## Memory writes: the fields they leave alone -/

@[simp] theorem State.writeByte_regs (s : State) (a : Word) (b : Byte) :
    (s.writeByte a b).regs = s.regs := rfl
@[simp] theorem State.writeByte_reg (s : State) (a : Word) (b : Byte) (p : PhysReg) :
    (s.writeByte a b).reg p = s.reg p := rfl
@[simp] theorem State.writeByte_pc (s : State) (a : Word) (b : Byte) :
    (s.writeByte a b).pc = s.pc := rfl
@[simp] theorem State.writeByte_cpsr (s : State) (a : Word) (b : Byte) :
    (s.writeByte a b).cpsr = s.cpsr := rfl
@[simp] theorem State.writeByte_spsr (s : State) (a : Word) (b : Byte) :
    (s.writeByte a b).spsr = s.spsr := rfl
@[simp] theorem State.writeByte_boundary (s : State) (a : Word) (b : Byte) :
    (s.writeByte a b).boundary = s.boundary := rfl
@[simp] theorem State.writeByte_platform (s : State) (a : Word) (b : Byte) :
    (s.writeByte a b).platform = s.platform := rfl

@[simp] theorem State.storeAt_reg (s : State) (w : Width) (a v : Word) (p : PhysReg) :
    (s.storeAt w a v).reg p = s.reg p := by cases w <;> rfl
@[simp] theorem State.storeAt_pc (s : State) (w : Width) (a v : Word) :
    (s.storeAt w a v).pc = s.pc := by cases w <;> rfl
@[simp] theorem State.storeAt_cpsr (s : State) (w : Width) (a v : Word) :
    (s.storeAt w a v).cpsr = s.cpsr := by cases w <;> rfl
@[simp] theorem State.storeAt_spsr (s : State) (w : Width) (a v : Word) :
    (s.storeAt w a v).spsr = s.spsr := by cases w <;> rfl
@[simp] theorem State.storeAt_boundary (s : State) (w : Width) (a v : Word) :
    (s.storeAt w a v).boundary = s.boundary := by cases w <;> rfl
@[simp] theorem State.storeAt_platform (s : State) (w : Width) (a v : Word) :
    (s.storeAt w a v).platform = s.platform := by cases w <;> rfl

/-! ## SPSRs -/

theorem SpsrBank.get_set (b : SpsrBank) (e f : ExcMode) (p : Spsr) :
    (b.set e p).get f = if e = f then p else b.get f := by
  cases e <;> cases f <;> rfl

end Sys2Proof.Machine
end

