-- ==== Sys2Proof/Laws/Memory.lean ====
section
/-!
SUPPORT. Memory: read after write, and every operation keeps the canonical form.
-/

namespace Sys2Proof.Machine

/-! ## One byte -/

/-- What an address reads below every listed one. -/
theorem Memory.get_of_lt {lo a : Nat} {m : List Host.Cell} (h : Memory.wfFrom lo m = true)
    (ha : a < lo) : Memory.get m a = Memory.unlisted := by
  induction m generalizing lo with
  | nil => rfl
  | cons c rest ih =>
    obtain ⟨k, b⟩ := c
    simp only [Memory.wfFrom, Bool.and_eq_true, decide_eq_true_eq] at h
    obtain ⟨⟨⟨h1, -⟩, -⟩, h4⟩ := h
    have hne : a ≠ k := by omega
    simp only [Memory.get, hne, if_false]
    exact ih h4 (by omega)

/-- Read after write, in a memory of the canonical form. -/
theorem Memory.get_set {lo : Nat} {m : List Host.Cell} (h : Memory.wfFrom lo m = true)
    (a x : Nat) (b : Byte) :
    Memory.get (Memory.set m a b) x = if x = a then b else Memory.get m x := by
  induction m generalizing lo with
  | nil =>
    by_cases hb : b = Memory.unlisted <;> by_cases hx : x = a <;> simp [Memory.set, Memory.get, hb, hx]
  | cons c rest ih =>
    obtain ⟨k, d⟩ := c
    have h0 := h
    simp only [Memory.wfFrom, Bool.and_eq_true, decide_eq_true_eq] at h
    obtain ⟨⟨⟨h1, h2⟩, h3⟩, h4⟩ := h
    simp only [Memory.set]
    split
    · next hlt =>
      split
      · next hb =>
        split
        · next hx =>
          subst hx; subst hb
          have hne : x ≠ k := by omega
          simp only [Memory.get, hne, if_false]
          exact Memory.get_of_lt h4 (by omega)
        · rfl
      · simp only [Memory.get]
    · split
      · next hlt heq =>
        subst heq
        split
        · next hb =>
          subst hb
          split
          · next hx => subst hx; exact Memory.get_of_lt h4 (by omega)
          · next hx => simp only [Memory.get, hx, if_false]
        · simp only [Memory.get]
          split <;> simp_all
      · next hlt hne =>
        simp only [Memory.get, ih h4]
        by_cases hx : x = a
        · subst hx
          simp [hne]
        · simp [hx]

/-- A write keeps the canonical form. -/
theorem Memory.wfFrom_set {lo : Nat} {m : List Host.Cell} (h : Memory.wfFrom lo m = true)
    {a : Nat} (b : Byte) (hlo : lo ≤ a) (ha : a < 2 ^ 32) :
    Memory.wfFrom lo (Memory.set m a b) = true := by
  induction m generalizing lo with
  | nil =>
    by_cases hb : b = Memory.unlisted <;> simp [Memory.set, Memory.wfFrom, hb, hlo]
    exact ha
  | cons c rest ih =>
    obtain ⟨k, d⟩ := c
    have h0 := h
    simp only [Memory.wfFrom, Bool.and_eq_true, decide_eq_true_eq] at h
    obtain ⟨⟨⟨h1, h2⟩, h3⟩, h4⟩ := h
    simp only [Memory.set]
    split
    · next hlt =>
      split
      · exact h0
      · next hb =>
        simp only [Memory.wfFrom, Bool.and_eq_true, decide_eq_true_eq, bne_iff_ne]
        exact ⟨⟨⟨hlo, ha⟩, hb⟩, ⟨⟨by omega, h2⟩, bne_iff_ne.mp h3⟩, h4⟩
    · split
      · next hlt heq =>
        subst heq
        split
        · clear ih h0
          have mono : ∀ (l : List Host.Cell) (u w : Nat), u ≤ w → Memory.wfFrom w l = true →
              Memory.wfFrom u l = true := by
            intro l u w huw hw
            cases l with
            | nil => rfl
            | cons c rest =>
              obtain ⟨j, e⟩ := c
              simp only [Memory.wfFrom, Bool.and_eq_true, decide_eq_true_eq] at hw ⊢
              exact ⟨⟨⟨by omega, hw.1.1.2⟩, hw.1.2⟩, hw.2⟩
          exact mono _ _ _ (by omega) h4
        · next hb =>
          simp only [Memory.wfFrom, Bool.and_eq_true, decide_eq_true_eq, bne_iff_ne]
          exact ⟨⟨⟨hlo, ha⟩, hb⟩, h4⟩
      · next hlt hne =>
        simp only [Memory.wfFrom, Bool.and_eq_true, decide_eq_true_eq]
        exact ⟨⟨⟨h1, h2⟩, h3⟩, ih h4 (by omega)⟩

/-! ## The machine's memory -/

/-- Reset's memory is in the canonical form. -/
theorem Memory.wf_reset : Memory.wf State.reset.mem = true := rfl

/-- A byte written is the byte read; every other byte reads as before. -/
theorem State.readByte_writeByte {s : State} (h : Memory.wf s.mem = true) (a x : Word) (b : Byte) :
    (s.writeByte a b).readByte x = if x = a then b else s.readByte x := by
  simp only [State.readByte, State.writeByte, Memory.get_set h, BitVec.toNat_inj]

theorem State.wf_writeByte {s : State} (h : Memory.wf s.mem = true) (a : Word) (b : Byte) :
    Memory.wf (s.writeByte a b).mem = true :=
  Memory.wfFrom_set h b (Nat.zero_le _) a.isLt

theorem State.wf_writeHalf {s : State} (h : Memory.wf s.mem = true) (a : Word) (v : BitVec 16) :
    Memory.wf (s.writeHalf a v).mem = true :=
  State.wf_writeByte (State.wf_writeByte h _ _) _ _

theorem State.wf_writeWord {s : State} (h : Memory.wf s.mem = true) (a v : Word) :
    Memory.wf (s.writeWord a v).mem = true :=
  State.wf_writeByte (State.wf_writeByte (State.wf_writeByte (State.wf_writeByte h _ _) _ _) _ _)
    _ _

theorem State.wf_writeBytes {s : State} (h : Memory.wf s.mem = true) (a : Word) (bs : List Byte) :
    Memory.wf (s.writeBytes a bs).mem = true := by
  induction bs generalizing s a with
  | nil => exact h
  | cons b rest ih => exact ih (State.wf_writeByte h a b) (a + 1)

theorem State.wf_storeAt {s : State} (h : Memory.wf s.mem = true) (w : Width) (a v : Word) :
    Memory.wf (s.storeAt w a v).mem = true := by
  cases w
  · exact State.wf_writeByte h _ _
  · exact State.wf_writeHalf h _ _
  · exact State.wf_writeWord h _ _

/-- A program loaded keeps the canonical form. -/
theorem State.wf_loadProgram {s : State} (h : Memory.wf s.mem = true) (base : Word)
    (ws : List Word) : Memory.wf (s.loadProgram base ws).mem = true :=
  State.wf_writeBytes h base _

/-- A word written: its four bytes, every other as before. -/
theorem State.readByte_writeWord {s : State} (h : Memory.wf s.mem = true) (a x v : Word) :
    (s.writeWord a v).readByte x =
      if x = a + 3 then v.extractLsb' 24 8
      else if x = a + 2 then v.extractLsb' 16 8
      else if x = a + 1 then v.extractLsb' 8 8
      else if x = a then v.extractLsb' 0 8
      else s.readByte x := by
  unfold State.writeWord
  rw [State.readByte_writeByte (State.wf_writeByte (State.wf_writeByte (State.wf_writeByte h _ _)
      _ _) _ _),
    State.readByte_writeByte (State.wf_writeByte (State.wf_writeByte h _ _) _ _),
    State.readByte_writeByte (State.wf_writeByte h _ _), State.readByte_writeByte h]

/-- A halfword written: its two bytes, every other as before. -/
theorem State.readByte_writeHalf {s : State} (h : Memory.wf s.mem = true) (a x : Word)
    (v : BitVec 16) :
    (s.writeHalf a v).readByte x =
      if x = a + 1 then v.extractLsb' 8 8
      else if x = a then v.extractLsb' 0 8
      else s.readByte x := by
  unfold State.writeHalf
  rw [State.readByte_writeByte (State.wf_writeByte h _ _), State.readByte_writeByte h]

/-- A store changes no byte but those of its access. -/
theorem State.readByte_storeAt_of_not_mem {s : State} (h : Memory.wf s.mem = true) (w : Width)
    (a v x : Word) (hx : x ∉ w.addresses a) : (s.storeAt w a v).readByte x = s.readByte x := by
  cases w <;> simp only [Width.addresses, List.mem_cons, List.not_mem_nil, or_false, not_or] at hx
  · simp [State.storeAt, State.readByte_writeByte h, hx]
  · obtain ⟨h0, h1⟩ := hx
    simp only [State.storeAt, State.readByte_writeHalf h, if_neg h0, if_neg h1]
  · obtain ⟨h0, h1, h2, h3⟩ := hx
    simp only [State.storeAt, State.readByte_writeWord h, if_neg h0, if_neg h1, if_neg h2,
      if_neg h3]

end Sys2Proof.Machine
end

