-- ==== Sys2Proof/Laws/Ops.lean ====
section
/-!
SUPPORT. For each shared operation one lemma that says everything it can do, and the
values taking an exception leaves.
-/

namespace Sys2Proof.Machine

/-! ## Control -/

/-- If advance answers a next state, it is the state with the pc past the instruction. -/
theorem advance_next {s t : State} (h : advance s = .next t) :
    s.pc.toNat + 4 < 2 ^ 32 ∧ t = { s with pc := s.pc + 4 } := by
  unfold advance at h
  split at h
  · exact ⟨‹_›, by injection h with h; exact h.symm⟩
  · cases h

/-- Where advance answers a next state. -/
theorem advance_of_lt {s : State} (h : s.pc.toNat + 4 < 2 ^ 32) :
    advance s = .next { s with pc := s.pc + 4 } := if_pos h

/-- Where it refuses. -/
theorem advance_top {s : State} (h : ¬ s.pc.toNat + 4 < 2 ^ 32) :
    advance s = .refused .pastTopOfMemory := if_neg h

/-- advance faults nowhere. -/
theorem advance_no_fault {s : State} {f : Fault} : advance s ≠ .fault f := by
  unfold advance; split <;> simp

/-- If guarded answers a next state, no restriction is broken, and either the condition
passes and the body answers it, or it fails and the pc only advances. -/
theorem guarded_next {r : Option Restriction} {c : Cond} {body : State → Result} {s t : State}
    (h : guarded r c body s = .next t) :
    r = none ∧ ((conditionPassed c s.cpsr = true ∧ body s = .next t) ∨
      (conditionPassed c s.cpsr = false ∧ advance s = .next t)) := by
  unfold guarded at h
  split at h
  · cases h
  · split at h
    · exact ⟨rfl, .inl ⟨‹_›, h⟩⟩
    · next hc => exact ⟨rfl, .inr ⟨by simpa using hc, h⟩⟩

/-- The body, where the condition passes. -/
theorem guarded_pass {r : Option Restriction} {c : Cond} {body : State → Result} {s : State}
    (hr : r = none) (hc : conditionPassed c s.cpsr = true) : guarded r c body s = body s := by
  subst hr; exact if_pos hc

/-- Only the pc advances, where it fails. -/
theorem guarded_fail {r : Option Restriction} {c : Cond} {body : State → Result} {s : State}
    (hr : r = none) (hc : conditionPassed c s.cpsr = false) : guarded r c body s = advance s := by
  subst hr; exact if_neg (by simp [hc])

/-- A broken restriction is refused, whatever the condition. -/
theorem guarded_restricted {why : Restriction} {c : Cond} {body : State → Result} {s : State} :
    guarded (some why) c body s = .refused (.unpredictable why) := rfl

/-! ## Exceptions -/

/-- What taking an exception leaves, field by field (rule R340). -/
theorem takeException_spec (k : ExceptionKind) (s : State) :
    (takeException k s).pc = k.vector ∧
    (takeException k s).cpsr =
      { s.cpsr with mode := k.mode.toMode, t := false, i := true, f := s.cpsr.f || k.masksFiq } ∧
    (∀ e, (takeException k s).spsr.get e =
      if k.mode = e then Spsr.ofCpsr s.cpsr else s.spsr.get e) ∧
    (∀ p, (takeException k s).reg p =
      if linkReg k.mode.toMode = p then s.pc + k.linkOffset else s.reg p) ∧
    (takeException k s).mem = s.mem ∧ (takeException k s).boundary = s.boundary ∧
    (takeException k s).platform = s.platform := by
  refine ⟨?_, rfl, fun e => SpsrBank.get_set _ _ _ _, fun p => ?_, rfl, rfl, rfl⟩
  · show Config.vectorBase + k.vector = k.vector
    simp [Config.vectorBase]
  · exact State.reg_setReg s _ p _

@[simp] theorem takeException_mem (k : ExceptionKind) (s : State) :
    (takeException k s).mem = s.mem := rfl
@[simp] theorem takeException_boundary (k : ExceptionKind) (s : State) :
    (takeException k s).boundary = s.boundary := rfl
@[simp] theorem takeException_platform (k : ExceptionKind) (s : State) :
    (takeException k s).platform = s.platform := rfl
@[simp] theorem takeException_readByte (k : ExceptionKind) (s : State) (a : Word) :
    (takeException k s).readByte a = s.readByte a := rfl
@[simp] theorem takeException_mode (k : ExceptionKind) (s : State) :
    (takeException k s).cpsr.mode = k.mode.toMode := rfl
@[simp] theorem takeException_t (k : ExceptionKind) (s : State) :
    (takeException k s).cpsr.t = false := rfl

/-- A vector address is word aligned. -/
theorem takeException_pc_aligned (k : ExceptionKind) (s : State) :
    (takeException k s).pc.extractLsb' 0 2 = 0 := by
  rw [(takeException_spec k s).1]; cases k <;> rfl

/-- If the return from an exception answers a next state, the mode has an SPSR, the CPSR
is that SPSR, and the target is aligned for the state restored (rule R203). -/
theorem returnFromException_next {target : Word} {s t : State}
    (h : returnFromException target s = .next t) :
    ∃ e p, s.cpsr.mode.exc = some e ∧ Cpsr.ofSpsr (s.spsr.get e) = some p ∧
      (p.t = false → target.extractLsb' 0 2 = 0) ∧ (p.t = true → target.getLsbD 0 = false) ∧
      t = { s with cpsr := p, pc := target } := by
  unfold returnFromException at h
  split at h
  · cases h
  · next e he =>
    split at h
    · cases h
    · next p hp =>
      split at h
      · cases h
      · next h1 =>
        split at h
        · cases h
        · next h2 =>
          refine ⟨e, p, he, hp, fun ht => ?_, fun ht => ?_, by injection h with h; exact h.symm⟩
          · by_contra hc; exact h1 ⟨ht, hc⟩
          · by_contra hc; exact h2 ⟨ht, by simpa using hc⟩

/-! ## Modes and status registers -/

theorem Mode.ofBits_toBits (m : Mode) : Mode.ofBits m.toBits = some m := by cases m <;> rfl

theorem Mode.toBits_of_ofBits {b : BitVec 5} {m : Mode} (h : Mode.ofBits b = some m) :
    m.toBits = b := by
  have key : ∀ b : BitVec 5, ∀ m, Mode.ofBits b = some m → m.toBits = b := by
    intro b m
    cases m <;> (revert b; decide +kernel)
  exact key b m h

/-- Each bit of a status register as a word (rules R30, R35). -/
theorem psrWord_getLsbD (n z c v i f t : Bool) (m : BitVec 5) {k : Nat} (hk : k < 32) :
    (psrWord n z c v i f t m).getLsbD k =
      (if k < 5 then m.getLsbD k
      else if k = 5 then t
      else if k = 6 then f
      else if k = 7 then i
      else if k < 28 then false
      else if k = 28 then v
      else if k = 29 then c
      else if k = 30 then z else n) := by
  simp only [psrWord, BitVec.getLsbD_append, BitVec.getLsbD_ofBool, BitVec.getLsbD_zero]
  interval_cases k <;> simp

/-- The CPSR survives being saved and restored. -/
theorem Cpsr.ofSpsr_ofCpsr (p : Cpsr) : Cpsr.ofSpsr (Spsr.ofCpsr p) = some p := by
  simp [Cpsr.ofSpsr, Spsr.ofCpsr, Mode.ofBits_toBits]

theorem Mode.exc_toMode (e : ExcMode) : e.toMode.exc = some e := by cases e <;> rfl

end Sys2Proof.Machine
end

