-- ==== Sys2Proof/Laws/Meanings.lean ====
section
/-!
SUPPORT. For each shared meaning one lemma that says everything it can do when it
answers a next state.
-/

namespace Sys2Proof.Machine

/-! ## Data processing -/

/-- writeResult: a register and the flags, or a branch, or the return from an exception
(rules R202, R203). -/
theorem writeResult_next {sf : Bool} {rd : Reg} {o : AluOut} {s t : State}
    (h : writeResult sf rd o s = .next t) :
    (rd ≠ 15 ∧ s.pc.toNat + 4 < 2 ^ 32 ∧
      t = { (s.writeReg rd o.value).setFlags sf o with pc := s.pc + 4 }) ∨
    (rd = 15 ∧ sf = false ∧ o.value.extractLsb' 0 2 = 0 ∧ t = { s with pc := o.value }) ∨
    (rd = 15 ∧ sf = true ∧ returnFromException o.value s = .next t) := by
  unfold writeResult at h
  split at h
  · next hrd =>
    split at h
    · next hsf => exact .inr (.inr ⟨hrd, hsf, h⟩)
    · next hsf =>
      split at h
      · next ha =>
        exact .inr (.inl ⟨hrd, by simpa using hsf, ha, by injection h with h; exact h.symm⟩)
      · cases h
  · next hrd =>
    obtain ⟨h1, h2⟩ := advance_next h
    simp only [State.setFlags_pc, State.writeReg_pc s _ hrd] at h1 h2
    exact .inl ⟨hrd, h1, h2⟩

/-- writeResult to a register completes below the top of memory. -/
theorem writeResult_reg {sf : Bool} {rd : Reg} {o : AluOut} {s : State} (hrd : rd ≠ 15)
    (hpc : s.pc.toNat + 4 < 2 ^ 32) :
    writeResult sf rd o s =
      .next { (s.writeReg rd o.value).setFlags sf o with pc := s.pc + 4 } := by
  unfold writeResult
  rw [if_neg hrd, advance_of_lt (by simpa [State.writeReg_pc s _ hrd] using hpc)]
  simp [State.writeReg_pc s _ hrd]

/-! ## Branches -/

/-- branchTo: the target, in its range (rule R131). -/
theorem branchTo_next {t last : Int} {s u : State} (h : branchTo t last s = .next u) :
    0 ≤ t ∧ t ≤ last ∧ u = { s with pc := BitVec.ofInt 32 t } := by
  unfold branchTo at h
  split at h
  · cases h
  · exact ⟨by omega, by omega, by injection h with h; exact h.symm⟩

/-- exchange: T from bit 0, the rest to the pc, which is aligned in ARM state (rule R133). -/
theorem exchange_next {r : Refusal} {v : Word} {s u : State} (h : exchange r v s = .next u) :
    ¬ (v.getLsbD 0 = false ∧ v.getLsbD 1 = true) ∧
      u = { s with cpsr := { s.cpsr with t := v.getLsbD 0 }, pc := v &&& 0xFFFFFFFE } := by
  unfold exchange at h
  split at h
  · cases h
  · exact ⟨‹_›, by injection h with h; exact h.symm⟩

/-- link writes the R14 of the mode and nothing else. -/
theorem link_eq (s : State) : link s = s.setReg (linkReg s.cpsr.mode) (s.pc + 4) := by
  unfold link State.writeReg
  rw [visible_link]

/-! ## Status registers -/

/-- msrCpsr: the flags where named; I, F and the mode where named and privileged
(rule R274). -/
theorem msrCpsr_next {mask : BitVec 4} {v : Word} {s t : State} (h : msrCpsr mask v s = .next t) :
    s.pc.toNat + 4 < 2 ^ 32 ∧
    ∃ p : Cpsr, t = { s with cpsr := p, pc := s.pc + 4 } ∧ p.t = s.cpsr.t ∧
      (p.mode ≠ s.cpsr.mode → s.cpsr.mode ≠ .usr) ∧
      (s.cpsr.mode = .usr → p.i = s.cpsr.i ∧ p.f = s.cpsr.f) := by
  unfold msrCpsr at h
  dsimp only at h
  split at h
  · next hp =>
    split at h
    · cases h
    · split at h
      · cases h
      · obtain ⟨h1, h2⟩ := advance_next h
        refine ⟨h1, _, h2, ?_, fun _ hu => ?_, fun hu => ?_⟩
        · simp only [Cpsr.writeControl]; split <;> rfl
        · simp [Mode.privileged, hu] at hp
        · simp [Mode.privileged, hu] at hp
  · obtain ⟨h1, h2⟩ := advance_next h
    refine ⟨h1, _, h2, ?_, fun hne => absurd ?_ hne, fun _ => ?_⟩
    · split <;> rfl
    · split <;> rfl
    · split <;> exact ⟨rfl, rfl⟩

/-- msrSpsr: the SPSR of the mode and the pc. -/
theorem msrSpsr_next {mask : BitVec 4} {v : Word} {s t : State} (h : msrSpsr mask v s = .next t) :
    s.pc.toNat + 4 < 2 ^ 32 ∧
    ∃ e p, s.cpsr.mode.exc = some e ∧ t = { s with spsr := s.spsr.set e p, pc := s.pc + 4 } := by
  unfold msrSpsr at h
  split at h
  · cases h
  · next e he =>
    obtain ⟨h1, h2⟩ := advance_next h
    exact ⟨h1, e, _, he, h2⟩

/-! ## Data accesses -/

/-- checkAdmission, where it lets the access be made: no abort, no program text
stored to, every byte admitted. -/
theorem checkAdmission_at {k : AccessKind} {w : Width} {a b : Word} {p : Platform}
    (h : checkAdmission k w a p = .at b) :
    b = a ∧ p.abortsAt k a = false ∧
      (k = .write → ∀ x ∈ w.addresses a, p.admits .fetch x = false) ∧
      ∀ x ∈ w.addresses a, p.admits k x = true := by
  unfold checkAdmission at h
  split at h
  · cases h
  · next hab =>
    split at h
    · cases h
    · next htext =>
      split at h
      · next hall =>
        refine ⟨by injection h with h; exact h.symm, by simpa using hab, fun hk x hx => ?_, ?_⟩
        · by_contra hc
          exact htext ⟨hk, List.any_eq_true.mpr ⟨x, hx, by simpa using hc⟩⟩
        · exact List.all_eq_true.mp hall
      · cases h

/-- checkAccess, where it lets the access be made: at the address if aligned, else at
the aligned word under `rotateOrIgnore`. -/
theorem checkAccess_at {k : AccessKind} {w : Width} {pc : Bool} {a b : Word} {p : Platform}
    (h : checkAccess k w pc a p = .at b) :
    checkAdmission k w b p = .at b ∧
      ((w.aligned a = true ∧ b = a) ∨
        (w.aligned a = false ∧ p.misaligned = .rotateOrIgnore ∧ w = .word ∧ pc = false ∧
          b = a &&& 0xFFFFFFFC)) := by
  unfold checkAccess at h
  split at h
  · next a' ha =>
    obtain ⟨rfl, -⟩ := checkAdmission_at h
    refine ⟨h, ?_⟩
    unfold checkAlignment at ha
    split at ha
    · next hal => exact .inl ⟨hal, by injection ha with ha; exact ha.symm⟩
    · next hal =>
      split at ha
      · cases ha
      · cases ha
      · next hp =>
        split at ha
        · next hw =>
          exact .inr ⟨by simpa using hal, hp, hw.1, hw.2, by injection ha with ha; exact ha.symm⟩
        · cases ha
  · cases h
  · cases h
  · cases h

/-- An aligned access without an abort, admitted, and no store into program text, is
made at its address. -/
theorem checkAccess_aligned {k : AccessKind} {w : Width} {pc : Bool} {a : Word} {p : Platform}
    (hal : w.aligned a = true) (hab : p.abortsAt k a = false)
    (htext : k = .write → ∀ x ∈ w.addresses a, p.admits .fetch x = false)
    (hall : ∀ x ∈ w.addresses a, p.admits k x = true) :
    checkAccess k w pc a p = .at a := by
  have h1 : ¬ (k = .write ∧ (w.addresses a).any (p.admits .fetch) = true) := by
    rintro ⟨hk, hany⟩
    obtain ⟨x, hx, hx'⟩ := List.any_eq_true.mp hany
    simp [htext hk x hx] at hx'
  have h2 : (w.addresses a).all (p.admits k) = true := List.all_eq_true.mpr hall
  simp only [checkAccess, checkAlignment, hal, if_true, checkAdmission, hab, h1, h2, if_false,
    Bool.false_eq_true]

/-- What a load does when it answers a next state. -/
theorem load_next {w : Width} {value : State → Word → Word} {rd15 : Option Restriction} {c : Cond}
    {am : Addressing} {rd : Reg} {s t : State} (h : load w value rd15 c am rd s = .next t) :
    am.restriction rd15 rd = none ∧
    ((conditionPassed c s.cpsr = false ∧ advance s = .next t) ∨
      (conditionPassed c s.cpsr = true ∧
        ((checkAccess .read w (rd == 15) (am.addr s) s.platform = .abort ∧ t = dataAbort am s) ∨
          (∃ a, checkAccess .read w (rd == 15) (am.addr s) s.platform = .at a ∧
            finishLoad am rd (value s (am.addr s)) s = .next t)))) := by
  obtain ⟨hr, ⟨hc, hb⟩ | ⟨hc, hb⟩⟩ := guarded_next h
  · refine ⟨hr, .inr ⟨hc, ?_⟩⟩
    split at hb
    · next a ha => exact .inr ⟨a, ha, hb⟩
    · next ha => exact .inl ⟨ha, by injection hb with hb; exact hb.symm⟩
    · cases hb
    · cases hb
  · exact ⟨hr, .inl ⟨hc, hb⟩⟩

/-- What a store does when it answers a next state. -/
theorem store_next {w : Width} {rd15 : Option Restriction} {c : Cond}
    {am : Addressing} {rd : Reg} {s t : State} (h : store w rd15 c am rd s = .next t) :
    am.restriction rd15 rd = none ∧
    ((conditionPassed c s.cpsr = false ∧ advance s = .next t) ∨
      (conditionPassed c s.cpsr = true ∧
        ((checkAccess .write w false (am.addr s) s.platform = .abort ∧ t = dataAbort am s) ∨
          (∃ a, checkAccess .write w false (am.addr s) s.platform = .at a ∧
            advance (am.writeBack (am.offAddr s) (s.storeAt w a (s.readReg rd))) = .next t)))) := by
  obtain ⟨hr, ⟨hc, hb⟩ | ⟨hc, hb⟩⟩ := guarded_next h
  · refine ⟨hr, .inr ⟨hc, ?_⟩⟩
    split at hb
    · next a ha => exact .inr ⟨a, ha, hb⟩
    · next ha => exact .inl ⟨ha, by injection hb with hb; exact hb.symm⟩
    · cases hb
    · cases hb
  · exact ⟨hr, .inl ⟨hc, hb⟩⟩

/-- Write-back never has R15 as its base (rule R306). -/
theorem Addressing.base_ne_fifteen {am : Addressing} {rd15 : Option Restriction} {rd : Reg}
    (h : am.restriction rd15 rd = none) (hw : am.wb = true) : am.rn ≠ 15 := by
  intro hn
  simp only [Addressing.restriction, transferRestriction, hw, hn] at h
  split at h
  · cases h
  · simp at h

/-- Write-back never has its base as Rd (rule R306). -/
theorem Addressing.base_ne_rd {am : Addressing} {rd15 : Option Restriction} {rd : Reg}
    (h : am.restriction rd15 rd = none) (hw : am.wb = true) : am.rn ≠ rd := by
  intro hn
  simp only [Addressing.restriction, transferRestriction, hw, hn] at h
  split at h
  · cases h
  · split at h
    · cases h
    · simp at h

/-- The base register after a Data Abort is the old one or the updated one; the rest is
the entry (rules R307, R336). -/
theorem dataAbort_eq (am : Addressing) (s : State) :
    dataAbort am s = takeException .dataAbort s ∨
      (am.wb = true ∧
        dataAbort am s = takeException .dataAbort (s.writeReg am.rn (am.offAddr s))) := by
  unfold dataAbort
  split
  · next h => exact .inr ⟨h.1, rfl⟩
  · exact .inl rfl

end Sys2Proof.Machine
end

