-- ==== Sys2Proof/Laws/PerInstr.lean ====
section
/-!
SUPPORT. A family of statements, one for each instruction: the condition field of its
word (rules R91, R102, R114).
-/

namespace Sys2Proof.Laws.ConditionField

/-- Bits 31:28 of the word are the code of the condition, or 1111 for BLX label, which
has none. -/
def Statement (i : Instr) : Prop :=
  bits (encode i) 28 4 =
    match Sys2Proof.Machine.conditionOf i with
    | some c => c.code
    | none => 0b1111#4

theorem andImm (c : Cond) (sf : Bool) (rn rd : Reg) (rotate : BitVec 4) (imm8 : BitVec 8) :
    Statement (.andImm c sf rn rd rotate imm8) :=
  (encDpImm_fields c 0b0000#4 sf rn rd rotate imm8).1

theorem andShiftImm (c : Cond) (sf : Bool) (rn rd : Reg) (shiftImm : BitVec 5) (sh : ShiftType)
    (rm : Reg) : Statement (.andShiftImm c sf rn rd shiftImm sh rm) :=
  (encDpShiftImm_fields c 0b0000#4 sf rn rd shiftImm sh rm).1

theorem andShiftReg (c : Cond) (sf : Bool) (rn rd rs : Reg) (sh : ShiftType) (rm : Reg) :
    Statement (.andShiftReg c sf rn rd rs sh rm) :=
  (encDpShiftReg_fields c 0b0000#4 sf rn rd rs sh rm).1

theorem eorImm (c : Cond) (sf : Bool) (rn rd : Reg) (rotate : BitVec 4) (imm8 : BitVec 8) :
    Statement (.eorImm c sf rn rd rotate imm8) :=
  (encDpImm_fields c 0b0001#4 sf rn rd rotate imm8).1

theorem eorShiftImm (c : Cond) (sf : Bool) (rn rd : Reg) (shiftImm : BitVec 5) (sh : ShiftType)
    (rm : Reg) : Statement (.eorShiftImm c sf rn rd shiftImm sh rm) :=
  (encDpShiftImm_fields c 0b0001#4 sf rn rd shiftImm sh rm).1

theorem eorShiftReg (c : Cond) (sf : Bool) (rn rd rs : Reg) (sh : ShiftType) (rm : Reg) :
    Statement (.eorShiftReg c sf rn rd rs sh rm) :=
  (encDpShiftReg_fields c 0b0001#4 sf rn rd rs sh rm).1

theorem subImm (c : Cond) (sf : Bool) (rn rd : Reg) (rotate : BitVec 4) (imm8 : BitVec 8) :
    Statement (.subImm c sf rn rd rotate imm8) :=
  (encDpImm_fields c 0b0010#4 sf rn rd rotate imm8).1

theorem subShiftImm (c : Cond) (sf : Bool) (rn rd : Reg) (shiftImm : BitVec 5) (sh : ShiftType)
    (rm : Reg) : Statement (.subShiftImm c sf rn rd shiftImm sh rm) :=
  (encDpShiftImm_fields c 0b0010#4 sf rn rd shiftImm sh rm).1

theorem subShiftReg (c : Cond) (sf : Bool) (rn rd rs : Reg) (sh : ShiftType) (rm : Reg) :
    Statement (.subShiftReg c sf rn rd rs sh rm) :=
  (encDpShiftReg_fields c 0b0010#4 sf rn rd rs sh rm).1

theorem rsbImm (c : Cond) (sf : Bool) (rn rd : Reg) (rotate : BitVec 4) (imm8 : BitVec 8) :
    Statement (.rsbImm c sf rn rd rotate imm8) :=
  (encDpImm_fields c 0b0011#4 sf rn rd rotate imm8).1

theorem rsbShiftImm (c : Cond) (sf : Bool) (rn rd : Reg) (shiftImm : BitVec 5) (sh : ShiftType)
    (rm : Reg) : Statement (.rsbShiftImm c sf rn rd shiftImm sh rm) :=
  (encDpShiftImm_fields c 0b0011#4 sf rn rd shiftImm sh rm).1

theorem rsbShiftReg (c : Cond) (sf : Bool) (rn rd rs : Reg) (sh : ShiftType) (rm : Reg) :
    Statement (.rsbShiftReg c sf rn rd rs sh rm) :=
  (encDpShiftReg_fields c 0b0011#4 sf rn rd rs sh rm).1

theorem addImm (c : Cond) (sf : Bool) (rn rd : Reg) (rotate : BitVec 4) (imm8 : BitVec 8) :
    Statement (.addImm c sf rn rd rotate imm8) :=
  (encDpImm_fields c 0b0100#4 sf rn rd rotate imm8).1

theorem addShiftImm (c : Cond) (sf : Bool) (rn rd : Reg) (shiftImm : BitVec 5) (sh : ShiftType)
    (rm : Reg) : Statement (.addShiftImm c sf rn rd shiftImm sh rm) :=
  (encDpShiftImm_fields c 0b0100#4 sf rn rd shiftImm sh rm).1

theorem addShiftReg (c : Cond) (sf : Bool) (rn rd rs : Reg) (sh : ShiftType) (rm : Reg) :
    Statement (.addShiftReg c sf rn rd rs sh rm) :=
  (encDpShiftReg_fields c 0b0100#4 sf rn rd rs sh rm).1

theorem adcImm (c : Cond) (sf : Bool) (rn rd : Reg) (rotate : BitVec 4) (imm8 : BitVec 8) :
    Statement (.adcImm c sf rn rd rotate imm8) :=
  (encDpImm_fields c 0b0101#4 sf rn rd rotate imm8).1

theorem adcShiftImm (c : Cond) (sf : Bool) (rn rd : Reg) (shiftImm : BitVec 5) (sh : ShiftType)
    (rm : Reg) : Statement (.adcShiftImm c sf rn rd shiftImm sh rm) :=
  (encDpShiftImm_fields c 0b0101#4 sf rn rd shiftImm sh rm).1

theorem adcShiftReg (c : Cond) (sf : Bool) (rn rd rs : Reg) (sh : ShiftType) (rm : Reg) :
    Statement (.adcShiftReg c sf rn rd rs sh rm) :=
  (encDpShiftReg_fields c 0b0101#4 sf rn rd rs sh rm).1

theorem sbcImm (c : Cond) (sf : Bool) (rn rd : Reg) (rotate : BitVec 4) (imm8 : BitVec 8) :
    Statement (.sbcImm c sf rn rd rotate imm8) :=
  (encDpImm_fields c 0b0110#4 sf rn rd rotate imm8).1

theorem sbcShiftImm (c : Cond) (sf : Bool) (rn rd : Reg) (shiftImm : BitVec 5) (sh : ShiftType)
    (rm : Reg) : Statement (.sbcShiftImm c sf rn rd shiftImm sh rm) :=
  (encDpShiftImm_fields c 0b0110#4 sf rn rd shiftImm sh rm).1

theorem sbcShiftReg (c : Cond) (sf : Bool) (rn rd rs : Reg) (sh : ShiftType) (rm : Reg) :
    Statement (.sbcShiftReg c sf rn rd rs sh rm) :=
  (encDpShiftReg_fields c 0b0110#4 sf rn rd rs sh rm).1

theorem rscImm (c : Cond) (sf : Bool) (rn rd : Reg) (rotate : BitVec 4) (imm8 : BitVec 8) :
    Statement (.rscImm c sf rn rd rotate imm8) :=
  (encDpImm_fields c 0b0111#4 sf rn rd rotate imm8).1

theorem rscShiftImm (c : Cond) (sf : Bool) (rn rd : Reg) (shiftImm : BitVec 5) (sh : ShiftType)
    (rm : Reg) : Statement (.rscShiftImm c sf rn rd shiftImm sh rm) :=
  (encDpShiftImm_fields c 0b0111#4 sf rn rd shiftImm sh rm).1

theorem rscShiftReg (c : Cond) (sf : Bool) (rn rd rs : Reg) (sh : ShiftType) (rm : Reg) :
    Statement (.rscShiftReg c sf rn rd rs sh rm) :=
  (encDpShiftReg_fields c 0b0111#4 sf rn rd rs sh rm).1

theorem tstImm (c : Cond) (rn : Reg) (rotate : BitVec 4) (imm8 : BitVec 8) : Statement (.tstImm c
    rn rotate imm8) :=
  (encDpImm_fields c 0b1000#4 true rn 0 rotate imm8).1

theorem tstShiftImm (c : Cond) (rn : Reg) (shiftImm : BitVec 5) (sh : ShiftType) (rm : Reg) :
    Statement (.tstShiftImm c rn shiftImm sh rm) :=
  (encDpShiftImm_fields c 0b1000#4 true rn 0 shiftImm sh rm).1

theorem tstShiftReg (c : Cond) (rn rs : Reg) (sh : ShiftType) (rm : Reg) : Statement (.tstShiftReg
    c rn rs sh rm) :=
  (encDpShiftReg_fields c 0b1000#4 true rn 0 rs sh rm).1

theorem teqImm (c : Cond) (rn : Reg) (rotate : BitVec 4) (imm8 : BitVec 8) : Statement (.teqImm c
    rn rotate imm8) :=
  (encDpImm_fields c 0b1001#4 true rn 0 rotate imm8).1

theorem teqShiftImm (c : Cond) (rn : Reg) (shiftImm : BitVec 5) (sh : ShiftType) (rm : Reg) :
    Statement (.teqShiftImm c rn shiftImm sh rm) :=
  (encDpShiftImm_fields c 0b1001#4 true rn 0 shiftImm sh rm).1

theorem teqShiftReg (c : Cond) (rn rs : Reg) (sh : ShiftType) (rm : Reg) : Statement (.teqShiftReg
    c rn rs sh rm) :=
  (encDpShiftReg_fields c 0b1001#4 true rn 0 rs sh rm).1

theorem cmpImm (c : Cond) (rn : Reg) (rotate : BitVec 4) (imm8 : BitVec 8) : Statement (.cmpImm c
    rn rotate imm8) :=
  (encDpImm_fields c 0b1010#4 true rn 0 rotate imm8).1

theorem cmpShiftImm (c : Cond) (rn : Reg) (shiftImm : BitVec 5) (sh : ShiftType) (rm : Reg) :
    Statement (.cmpShiftImm c rn shiftImm sh rm) :=
  (encDpShiftImm_fields c 0b1010#4 true rn 0 shiftImm sh rm).1

theorem cmpShiftReg (c : Cond) (rn rs : Reg) (sh : ShiftType) (rm : Reg) : Statement (.cmpShiftReg
    c rn rs sh rm) :=
  (encDpShiftReg_fields c 0b1010#4 true rn 0 rs sh rm).1

theorem cmnImm (c : Cond) (rn : Reg) (rotate : BitVec 4) (imm8 : BitVec 8) : Statement (.cmnImm c
    rn rotate imm8) :=
  (encDpImm_fields c 0b1011#4 true rn 0 rotate imm8).1

theorem cmnShiftImm (c : Cond) (rn : Reg) (shiftImm : BitVec 5) (sh : ShiftType) (rm : Reg) :
    Statement (.cmnShiftImm c rn shiftImm sh rm) :=
  (encDpShiftImm_fields c 0b1011#4 true rn 0 shiftImm sh rm).1

theorem cmnShiftReg (c : Cond) (rn rs : Reg) (sh : ShiftType) (rm : Reg) : Statement (.cmnShiftReg
    c rn rs sh rm) :=
  (encDpShiftReg_fields c 0b1011#4 true rn 0 rs sh rm).1

theorem orrImm (c : Cond) (sf : Bool) (rn rd : Reg) (rotate : BitVec 4) (imm8 : BitVec 8) :
    Statement (.orrImm c sf rn rd rotate imm8) :=
  (encDpImm_fields c 0b1100#4 sf rn rd rotate imm8).1

theorem orrShiftImm (c : Cond) (sf : Bool) (rn rd : Reg) (shiftImm : BitVec 5) (sh : ShiftType)
    (rm : Reg) : Statement (.orrShiftImm c sf rn rd shiftImm sh rm) :=
  (encDpShiftImm_fields c 0b1100#4 sf rn rd shiftImm sh rm).1

theorem orrShiftReg (c : Cond) (sf : Bool) (rn rd rs : Reg) (sh : ShiftType) (rm : Reg) :
    Statement (.orrShiftReg c sf rn rd rs sh rm) :=
  (encDpShiftReg_fields c 0b1100#4 sf rn rd rs sh rm).1

theorem movImm (c : Cond) (sf : Bool) (rd : Reg) (rotate : BitVec 4) (imm8 : BitVec 8) : Statement
    (.movImm c sf rd rotate imm8) :=
  (encDpImm_fields c 0b1101#4 sf 0 rd rotate imm8).1

theorem movShiftImm (c : Cond) (sf : Bool) (rd : Reg) (shiftImm : BitVec 5) (sh : ShiftType) (rm :
    Reg) : Statement (.movShiftImm c sf rd shiftImm sh rm) :=
  (encDpShiftImm_fields c 0b1101#4 sf 0 rd shiftImm sh rm).1

theorem movShiftReg (c : Cond) (sf : Bool) (rd rs : Reg) (sh : ShiftType) (rm : Reg) : Statement
    (.movShiftReg c sf rd rs sh rm) :=
  (encDpShiftReg_fields c 0b1101#4 sf 0 rd rs sh rm).1

theorem bicImm (c : Cond) (sf : Bool) (rn rd : Reg) (rotate : BitVec 4) (imm8 : BitVec 8) :
    Statement (.bicImm c sf rn rd rotate imm8) :=
  (encDpImm_fields c 0b1110#4 sf rn rd rotate imm8).1

theorem bicShiftImm (c : Cond) (sf : Bool) (rn rd : Reg) (shiftImm : BitVec 5) (sh : ShiftType)
    (rm : Reg) : Statement (.bicShiftImm c sf rn rd shiftImm sh rm) :=
  (encDpShiftImm_fields c 0b1110#4 sf rn rd shiftImm sh rm).1

theorem bicShiftReg (c : Cond) (sf : Bool) (rn rd rs : Reg) (sh : ShiftType) (rm : Reg) :
    Statement (.bicShiftReg c sf rn rd rs sh rm) :=
  (encDpShiftReg_fields c 0b1110#4 sf rn rd rs sh rm).1

theorem mvnImm (c : Cond) (sf : Bool) (rd : Reg) (rotate : BitVec 4) (imm8 : BitVec 8) : Statement
    (.mvnImm c sf rd rotate imm8) :=
  (encDpImm_fields c 0b1111#4 sf 0 rd rotate imm8).1

theorem mvnShiftImm (c : Cond) (sf : Bool) (rd : Reg) (shiftImm : BitVec 5) (sh : ShiftType) (rm :
    Reg) : Statement (.mvnShiftImm c sf rd shiftImm sh rm) :=
  (encDpShiftImm_fields c 0b1111#4 sf 0 rd shiftImm sh rm).1

theorem mvnShiftReg (c : Cond) (sf : Bool) (rd rs : Reg) (sh : ShiftType) (rm : Reg) : Statement
    (.mvnShiftReg c sf rd rs sh rm) :=
  (encDpShiftReg_fields c 0b1111#4 sf 0 rd rs sh rm).1

theorem mul (c : Cond) (sf : Bool) (rd rs rm : Reg) : Statement (.mul c sf rd rs rm) :=
  (encMul_fields c 0b000#3 sf rd 0 rs rm).1

theorem mla (c : Cond) (sf : Bool) (rd rn rs rm : Reg) : Statement (.mla c sf rd rn rs rm) :=
  (encMul_fields c 0b001#3 sf rd rn rs rm).1

theorem umull (c : Cond) (sf : Bool) (rdHi rdLo rs rm : Reg) : Statement (.umull c sf rdHi rdLo rs
    rm) :=
  (encMul_fields c 0b100#3 sf rdHi rdLo rs rm).1

theorem umlal (c : Cond) (sf : Bool) (rdHi rdLo rs rm : Reg) : Statement (.umlal c sf rdHi rdLo rs
    rm) :=
  (encMul_fields c 0b101#3 sf rdHi rdLo rs rm).1

theorem smull (c : Cond) (sf : Bool) (rdHi rdLo rs rm : Reg) : Statement (.smull c sf rdHi rdLo rs
    rm) :=
  (encMul_fields c 0b110#3 sf rdHi rdLo rs rm).1

theorem smlal (c : Cond) (sf : Bool) (rdHi rdLo rs rm : Reg) : Statement (.smlal c sf rdHi rdLo rs
    rm) :=
  (encMul_fields c 0b111#3 sf rdHi rdLo rs rm).1

theorem b (c : Cond) (imm24 : BitVec 24) : Statement (.b c imm24) :=
  (encBranch_fields c false imm24).1

theorem bl (c : Cond) (imm24 : BitVec 24) : Statement (.bl c imm24) :=
  (encBranch_fields c true imm24).1

theorem bx (c : Cond) (rm : Reg) : Statement (.bx c rm) :=
  (encBx_fields c 0b0001#4 rm).1

theorem blxReg (c : Cond) (rm : Reg) : Statement (.blxReg c rm) :=
  (encBx_fields c 0b0011#4 rm).1

theorem blxLabel (h : Bool) (imm24 : BitVec 24) : Statement (.blxLabel h imm24) :=
  (encBlxLabel_fields h imm24).1

theorem mrs (c : Cond) (psr : PsrSel) (rd : Reg) : Statement (.mrs c psr rd) :=
  (encMrs_fields c psr rd).1

theorem msrImm (c : Cond) (psr : PsrSel) (fieldMask rotate : BitVec 4) (imm8 : BitVec 8) :
    Statement (.msrImm c psr fieldMask rotate imm8) :=
  (encMsrImm_fields c psr fieldMask rotate imm8).1

theorem msrReg (c : Cond) (psr : PsrSel) (fieldMask : BitVec 4) (rm : Reg) : Statement (.msrReg c
    psr fieldMask rm) :=
  (encMsrReg_fields c psr fieldMask rm).1

theorem ldrImmPre (c : Cond) (u w : Bool) (rn rd : Reg) (imm12 : BitVec 12) : Statement
    (.ldrImmPre c u w rn rd imm12) :=
  (encLsImm_fields c true u false w true rn rd imm12).1

theorem ldrImmPost (c : Cond) (u : Bool) (rn rd : Reg) (imm12 : BitVec 12) : Statement
    (.ldrImmPost c u rn rd imm12) :=
  (encLsImm_fields c false u false false true rn rd imm12).1

theorem ldrRegPre (c : Cond) (u w : Bool) (rn rd : Reg) (shiftImm : BitVec 5) (sh : ShiftType) (rm
    : Reg) : Statement (.ldrRegPre c u w rn rd shiftImm sh rm) :=
  (encLsReg_fields c true u false w true rn rd shiftImm sh rm).1

theorem ldrRegPost (c : Cond) (u : Bool) (rn rd : Reg) (shiftImm : BitVec 5) (sh : ShiftType) (rm
    : Reg) : Statement (.ldrRegPost c u rn rd shiftImm sh rm) :=
  (encLsReg_fields c false u false false true rn rd shiftImm sh rm).1

theorem strImmPre (c : Cond) (u w : Bool) (rn rd : Reg) (imm12 : BitVec 12) : Statement
    (.strImmPre c u w rn rd imm12) :=
  (encLsImm_fields c true u false w false rn rd imm12).1

theorem strImmPost (c : Cond) (u : Bool) (rn rd : Reg) (imm12 : BitVec 12) : Statement
    (.strImmPost c u rn rd imm12) :=
  (encLsImm_fields c false u false false false rn rd imm12).1

theorem strRegPre (c : Cond) (u w : Bool) (rn rd : Reg) (shiftImm : BitVec 5) (sh : ShiftType) (rm
    : Reg) : Statement (.strRegPre c u w rn rd shiftImm sh rm) :=
  (encLsReg_fields c true u false w false rn rd shiftImm sh rm).1

theorem strRegPost (c : Cond) (u : Bool) (rn rd : Reg) (shiftImm : BitVec 5) (sh : ShiftType) (rm
    : Reg) : Statement (.strRegPost c u rn rd shiftImm sh rm) :=
  (encLsReg_fields c false u false false false rn rd shiftImm sh rm).1

theorem ldrbImmPre (c : Cond) (u w : Bool) (rn rd : Reg) (imm12 : BitVec 12) : Statement
    (.ldrbImmPre c u w rn rd imm12) :=
  (encLsImm_fields c true u true w true rn rd imm12).1

theorem ldrbImmPost (c : Cond) (u : Bool) (rn rd : Reg) (imm12 : BitVec 12) : Statement
    (.ldrbImmPost c u rn rd imm12) :=
  (encLsImm_fields c false u true false true rn rd imm12).1

theorem ldrbRegPre (c : Cond) (u w : Bool) (rn rd : Reg) (shiftImm : BitVec 5) (sh : ShiftType)
    (rm : Reg) : Statement (.ldrbRegPre c u w rn rd shiftImm sh rm) :=
  (encLsReg_fields c true u true w true rn rd shiftImm sh rm).1

theorem ldrbRegPost (c : Cond) (u : Bool) (rn rd : Reg) (shiftImm : BitVec 5) (sh : ShiftType) (rm
    : Reg) : Statement (.ldrbRegPost c u rn rd shiftImm sh rm) :=
  (encLsReg_fields c false u true false true rn rd shiftImm sh rm).1

theorem strbImmPre (c : Cond) (u w : Bool) (rn rd : Reg) (imm12 : BitVec 12) : Statement
    (.strbImmPre c u w rn rd imm12) :=
  (encLsImm_fields c true u true w false rn rd imm12).1

theorem strbImmPost (c : Cond) (u : Bool) (rn rd : Reg) (imm12 : BitVec 12) : Statement
    (.strbImmPost c u rn rd imm12) :=
  (encLsImm_fields c false u true false false rn rd imm12).1

theorem strbRegPre (c : Cond) (u w : Bool) (rn rd : Reg) (shiftImm : BitVec 5) (sh : ShiftType)
    (rm : Reg) : Statement (.strbRegPre c u w rn rd shiftImm sh rm) :=
  (encLsReg_fields c true u true w false rn rd shiftImm sh rm).1

theorem strbRegPost (c : Cond) (u : Bool) (rn rd : Reg) (shiftImm : BitVec 5) (sh : ShiftType) (rm
    : Reg) : Statement (.strbRegPost c u rn rd shiftImm sh rm) :=
  (encLsReg_fields c false u true false false rn rd shiftImm sh rm).1

theorem ldrtImm (c : Cond) (u : Bool) (rn rd : Reg) (imm12 : BitVec 12) : Statement (.ldrtImm c u
    rn rd imm12) :=
  (encLsImm_fields c false u false true true rn rd imm12).1

theorem ldrtReg (c : Cond) (u : Bool) (rn rd : Reg) (shiftImm : BitVec 5) (sh : ShiftType) (rm :
    Reg) : Statement (.ldrtReg c u rn rd shiftImm sh rm) :=
  (encLsReg_fields c false u false true true rn rd shiftImm sh rm).1

theorem strtImm (c : Cond) (u : Bool) (rn rd : Reg) (imm12 : BitVec 12) : Statement (.strtImm c u
    rn rd imm12) :=
  (encLsImm_fields c false u false true false rn rd imm12).1

theorem strtReg (c : Cond) (u : Bool) (rn rd : Reg) (shiftImm : BitVec 5) (sh : ShiftType) (rm :
    Reg) : Statement (.strtReg c u rn rd shiftImm sh rm) :=
  (encLsReg_fields c false u false true false rn rd shiftImm sh rm).1

theorem ldrbtImm (c : Cond) (u : Bool) (rn rd : Reg) (imm12 : BitVec 12) : Statement (.ldrbtImm c
    u rn rd imm12) :=
  (encLsImm_fields c false u true true true rn rd imm12).1

theorem ldrbtReg (c : Cond) (u : Bool) (rn rd : Reg) (shiftImm : BitVec 5) (sh : ShiftType) (rm :
    Reg) : Statement (.ldrbtReg c u rn rd shiftImm sh rm) :=
  (encLsReg_fields c false u true true true rn rd shiftImm sh rm).1

theorem strbtImm (c : Cond) (u : Bool) (rn rd : Reg) (imm12 : BitVec 12) : Statement (.strbtImm c
    u rn rd imm12) :=
  (encLsImm_fields c false u true true false rn rd imm12).1

theorem strbtReg (c : Cond) (u : Bool) (rn rd : Reg) (shiftImm : BitVec 5) (sh : ShiftType) (rm :
    Reg) : Statement (.strbtReg c u rn rd shiftImm sh rm) :=
  (encLsReg_fields c false u true true false rn rd shiftImm sh rm).1

theorem ldrhImmPre (c : Cond) (u w : Bool) (rn rd : Reg) (immH immL : BitVec 4) : Statement
    (.ldrhImmPre c u w rn rd immH immL) :=
  (encHalf_fields c true u true w true rn rd immH 0b01#2 immL).1

theorem ldrhImmPost (c : Cond) (u : Bool) (rn rd : Reg) (immH immL : BitVec 4) : Statement
    (.ldrhImmPost c u rn rd immH immL) :=
  (encHalf_fields c false u true false true rn rd immH 0b01#2 immL).1

theorem ldrhRegPre (c : Cond) (u w : Bool) (rn rd rm : Reg) : Statement (.ldrhRegPre c u w rn rd
    rm) :=
  (encHalf_fields c true u false w true rn rd 0 0b01#2 rm).1

theorem ldrhRegPost (c : Cond) (u : Bool) (rn rd rm : Reg) : Statement (.ldrhRegPost c u rn rd rm)
    :=
  (encHalf_fields c false u false false true rn rd 0 0b01#2 rm).1

theorem strhImmPre (c : Cond) (u w : Bool) (rn rd : Reg) (immH immL : BitVec 4) : Statement
    (.strhImmPre c u w rn rd immH immL) :=
  (encHalf_fields c true u true w false rn rd immH 0b01#2 immL).1

theorem strhImmPost (c : Cond) (u : Bool) (rn rd : Reg) (immH immL : BitVec 4) : Statement
    (.strhImmPost c u rn rd immH immL) :=
  (encHalf_fields c false u true false false rn rd immH 0b01#2 immL).1

theorem strhRegPre (c : Cond) (u w : Bool) (rn rd rm : Reg) : Statement (.strhRegPre c u w rn rd
    rm) :=
  (encHalf_fields c true u false w false rn rd 0 0b01#2 rm).1

theorem strhRegPost (c : Cond) (u : Bool) (rn rd rm : Reg) : Statement (.strhRegPost c u rn rd rm)
    :=
  (encHalf_fields c false u false false false rn rd 0 0b01#2 rm).1

theorem ldrsbImmPre (c : Cond) (u w : Bool) (rn rd : Reg) (immH immL : BitVec 4) : Statement
    (.ldrsbImmPre c u w rn rd immH immL) :=
  (encHalf_fields c true u true w true rn rd immH 0b10#2 immL).1

theorem ldrsbImmPost (c : Cond) (u : Bool) (rn rd : Reg) (immH immL : BitVec 4) : Statement
    (.ldrsbImmPost c u rn rd immH immL) :=
  (encHalf_fields c false u true false true rn rd immH 0b10#2 immL).1

theorem ldrsbRegPre (c : Cond) (u w : Bool) (rn rd rm : Reg) : Statement (.ldrsbRegPre c u w rn rd
    rm) :=
  (encHalf_fields c true u false w true rn rd 0 0b10#2 rm).1

theorem ldrsbRegPost (c : Cond) (u : Bool) (rn rd rm : Reg) : Statement (.ldrsbRegPost c u rn rd
    rm) :=
  (encHalf_fields c false u false false true rn rd 0 0b10#2 rm).1

theorem ldrshImmPre (c : Cond) (u w : Bool) (rn rd : Reg) (immH immL : BitVec 4) : Statement
    (.ldrshImmPre c u w rn rd immH immL) :=
  (encHalf_fields c true u true w true rn rd immH 0b11#2 immL).1

theorem ldrshImmPost (c : Cond) (u : Bool) (rn rd : Reg) (immH immL : BitVec 4) : Statement
    (.ldrshImmPost c u rn rd immH immL) :=
  (encHalf_fields c false u true false true rn rd immH 0b11#2 immL).1

theorem ldrshRegPre (c : Cond) (u w : Bool) (rn rd rm : Reg) : Statement (.ldrshRegPre c u w rn rd
    rm) :=
  (encHalf_fields c true u false w true rn rd 0 0b11#2 rm).1

theorem ldrshRegPost (c : Cond) (u : Bool) (rn rd rm : Reg) : Statement (.ldrshRegPost c u rn rd
    rm) :=
  (encHalf_fields c false u false false true rn rd 0 0b11#2 rm).1

theorem undefined (c : Cond) (hi : BitVec 20) (lo : BitVec 4) : Statement (.undefined c hi lo) :=
  (encUndefined_fields c hi lo).1

end Sys2Proof.Laws.ConditionField
end

