-- ==== Sys2Proof/Laws/Shapes.lean ====
section
/-!
SUPPORT. The meaning of an instruction by its shape (Claims.lean), so that a proof about a
shape unfolds no meaning.
-/

namespace Sys2Proof.Machine

/-- The function of an operation (Machine/Flags.lean). -/
def aluOf (op : DpOp) : Word → Word → Bool → Bool → AluOut :=
  match op with
  | .and => aluAnd
  | .eor => aluEor
  | .sub => aluSub
  | .rsb => aluRsb
  | .add => aluAdd
  | .adc => aluAdc
  | .sbc => aluSbc
  | .rsc => aluRsc
  | .tst => aluTst
  | .teq => aluTeq
  | .cmp => aluCmp
  | .cmn => aluCmn
  | .orr => aluOrr
  | .mov => aluMov
  | .bic => aluBic
  | .mvn => aluMvn

/-- What an operation delivers in a state. -/
def DpView.out (d : DpView) (s : State) : AluOut :=
  aluOf d.op (s.readReg d.rn) (shifterOperand d.operand s).value (shifterOperand d.operand s).carry
    s.cpsr.c

/-- A data-processing instruction, by its shape. -/
theorem exec_of_dpView {i : Instr} {d : DpView} (h : dpView i = some d) (s : State) :
    exec i s = guarded (d.operand.restriction d.rn d.rd) d.c
      (fun s => bif isCompare d.op then advance (s.setFlags true (d.out s))
        else writeResult d.sf d.rd (d.out s) s) s := by
  cases i <;> (first | (cases h; done) | (injection h with h; subst h; rfl))

/-- What a load reads at its address. -/
def loadValue (w : Width) (signed : Bool) : State → Word → Word :=
  match w, signed with
  | .word, _ => State.loadWord
  | .byte, false => State.loadByte
  | .byte, true => State.loadSignedByte
  | .half, false => State.loadHalf
  | .half, true => State.loadSignedHalf

/-- A single data transfer, by its shape. -/
theorem exec_of_transferView {i : Instr} {x : TransferView} (h : transferView i = some x)
    (s : State) :
    exec i s = bif x.load then load x.width (loadValue x.width x.signed) x.rd15 x.c x.am x.rd s
      else store x.width x.rd15 x.c x.am x.rd s := by
  cases i <;> (first | (cases h; done) | (injection h with h; subst h; rfl))

/-- Only LDR has no restriction on Rd = R15 (rule R306). -/
theorem TransferView.ldr_of_rd15 {i : Instr} {x : TransferView} (h : transferView i = some x)
    (hn : x.rd15 = none) : x.load = true ∧ x.width = .word ∧ x.signed = false := by
  cases i <;> (first
    | (cases h; done)
    | (injection h with h; subst h; first | (cases hn; done) | exact ⟨rfl, rfl, rfl⟩))

end Sys2Proof.Machine
end

