-- ==== Sys2Proof/Tests/Slice0.lean ====
section
/-!
SUPPORT. Tests: the checks of WellFormed, the decoder on words written from the spec's
encodings, single steps, and a witness for the hypotheses of each statement of
Certificates/Slice0/Obligations.lean. The words and the outcomes are those of
spec/95_test_vectors.md; a test's name holds the vector's number.
-/

set_option Elab.async false

namespace Sys2Proof.Tests

open Sys2Proof.Machine

/-! ## WellFormed: one ill-formed instruction for each check -/

theorem test_wf_shiftRegR15 :
    Instr.restriction (.movShiftReg .al false 0 15 .lsl 2) = some .shiftRegR15 := by decide

theorem test_wf_multiplyR15 :
    Instr.restriction (.mul .al false 15 2 1) = some .multiplyR15 := by decide

theorem test_wf_multiplyRdRm :
    Instr.restriction (.mla .al false 1 3 2 1) = some .multiplyRdRm := by decide

theorem test_wf_longMultiplyRegs :
    Instr.restriction (.umull .al false 1 1 3 2) = some .longMultiplyRegs := by decide

theorem test_wf_bxR15 :
    Instr.restriction (.bx .al 15) = some .bxR15 := by decide

theorem test_wf_blxR15 :
    Instr.restriction (.blxReg .al 15) = some .blxR15 := by decide

theorem test_wf_mrsR15 :
    Instr.restriction (.mrs .al .cpsr 15) = some .mrsR15 := by decide

theorem test_wf_msrR15 :
    Instr.restriction (.msrReg .al .cpsr 1 15) = some .msrR15 := by decide

theorem test_wf_offsetR15 :
    Instr.restriction (.ldrRegPre .al true false 1 0 0 .lsl 15) = some .offsetR15 := by decide

theorem test_wf_writebackR15 :
    Instr.restriction (.ldrImmPre .al true true 15 0 4) = some .writebackR15 := by decide

theorem test_wf_writebackRnRd :
    Instr.restriction (.ldrImmPost .al true 0 0 4) = some .writebackRnRd := by decide

theorem test_wf_writebackRmRn :
    Instr.restriction (.strhRegPost .al true 1 0 1) = some .writebackRmRn := by decide

theorem test_wf_transferR15 :
    Instr.restriction (.ldrbImmPre .al true false 1 15 0) = some .transferR15 := by decide

theorem test_wf_storeR15 :
    Instr.restriction (.strImmPre .al true false 1 15 0) = some .storeR15 := by decide


theorem test_wf_accepts_ldr_to_pc :
    Instr.restriction (.ldrImmPost .al true 13 15 4) = none := by decide

/-! ## Decode: section 2 of the vectors, every constructor -/

theorem test_decode_and :
    decode 0xE2010CFF#32 = .ok (.andImm .al false 1 0 12 255) ∧
    decode 0xE0010182#32 = .ok (.andShiftImm .al false 1 0 3 .lsl 2) ∧
    decode 0xE0110372#32 = .ok (.andShiftReg .al true 1 0 3 .ror 2) := by
  decide +kernel

theorem test_decode_eor :
    decode 0xE2210CFF#32 = .ok (.eorImm .al false 1 0 12 255) ∧
    decode 0xE0210182#32 = .ok (.eorShiftImm .al false 1 0 3 .lsl 2) ∧
    decode 0xE0310372#32 = .ok (.eorShiftReg .al true 1 0 3 .ror 2) := by
  decide +kernel

theorem test_decode_sub :
    decode 0xE2410CFF#32 = .ok (.subImm .al false 1 0 12 255) ∧
    decode 0xE0410182#32 = .ok (.subShiftImm .al false 1 0 3 .lsl 2) ∧
    decode 0xE0510372#32 = .ok (.subShiftReg .al true 1 0 3 .ror 2) := by
  decide +kernel

theorem test_decode_rsb :
    decode 0xE2610CFF#32 = .ok (.rsbImm .al false 1 0 12 255) ∧
    decode 0xE0610182#32 = .ok (.rsbShiftImm .al false 1 0 3 .lsl 2) ∧
    decode 0xE0710372#32 = .ok (.rsbShiftReg .al true 1 0 3 .ror 2) := by
  decide +kernel

theorem test_decode_add :
    decode 0xE2810CFF#32 = .ok (.addImm .al false 1 0 12 255) ∧
    decode 0xE0810182#32 = .ok (.addShiftImm .al false 1 0 3 .lsl 2) ∧
    decode 0xE0910372#32 = .ok (.addShiftReg .al true 1 0 3 .ror 2) := by
  decide +kernel

theorem test_decode_adc :
    decode 0xE2A10CFF#32 = .ok (.adcImm .al false 1 0 12 255) ∧
    decode 0xE0A10182#32 = .ok (.adcShiftImm .al false 1 0 3 .lsl 2) ∧
    decode 0xE0B10372#32 = .ok (.adcShiftReg .al true 1 0 3 .ror 2) := by
  decide +kernel

theorem test_decode_sbc :
    decode 0xE2C10CFF#32 = .ok (.sbcImm .al false 1 0 12 255) ∧
    decode 0xE0C10182#32 = .ok (.sbcShiftImm .al false 1 0 3 .lsl 2) ∧
    decode 0xE0D10372#32 = .ok (.sbcShiftReg .al true 1 0 3 .ror 2) := by
  decide +kernel

theorem test_decode_rsc :
    decode 0xE2E10CFF#32 = .ok (.rscImm .al false 1 0 12 255) ∧
    decode 0xE0E10182#32 = .ok (.rscShiftImm .al false 1 0 3 .lsl 2) ∧
    decode 0xE0F10372#32 = .ok (.rscShiftReg .al true 1 0 3 .ror 2) := by
  decide +kernel

theorem test_decode_tst :
    decode 0xE3110CFF#32 = .ok (.tstImm .al 1 12 255) ∧
    decode 0xE1110182#32 = .ok (.tstShiftImm .al 1 3 .lsl 2) ∧
    decode 0xE1110372#32 = .ok (.tstShiftReg .al 1 3 .ror 2) := by
  decide +kernel

theorem test_decode_teq :
    decode 0xE3310CFF#32 = .ok (.teqImm .al 1 12 255) ∧
    decode 0xE1310182#32 = .ok (.teqShiftImm .al 1 3 .lsl 2) ∧
    decode 0xE1310372#32 = .ok (.teqShiftReg .al 1 3 .ror 2) := by
  decide +kernel

theorem test_decode_cmp :
    decode 0xE3510CFF#32 = .ok (.cmpImm .al 1 12 255) ∧
    decode 0xE1510182#32 = .ok (.cmpShiftImm .al 1 3 .lsl 2) ∧
    decode 0xE1510372#32 = .ok (.cmpShiftReg .al 1 3 .ror 2) := by
  decide +kernel

theorem test_decode_cmn :
    decode 0xE3710CFF#32 = .ok (.cmnImm .al 1 12 255) ∧
    decode 0xE1710182#32 = .ok (.cmnShiftImm .al 1 3 .lsl 2) ∧
    decode 0xE1710372#32 = .ok (.cmnShiftReg .al 1 3 .ror 2) := by
  decide +kernel

theorem test_decode_orr :
    decode 0xE3810CFF#32 = .ok (.orrImm .al false 1 0 12 255) ∧
    decode 0xE1810182#32 = .ok (.orrShiftImm .al false 1 0 3 .lsl 2) ∧
    decode 0xE1910372#32 = .ok (.orrShiftReg .al true 1 0 3 .ror 2) := by
  decide +kernel

theorem test_decode_mov :
    decode 0xE3A00CFF#32 = .ok (.movImm .al false 0 12 255) ∧
    decode 0xE1A00182#32 = .ok (.movShiftImm .al false 0 3 .lsl 2) ∧
    decode 0xE1B00372#32 = .ok (.movShiftReg .al true 0 3 .ror 2) := by
  decide +kernel

theorem test_decode_bic :
    decode 0xE3C10CFF#32 = .ok (.bicImm .al false 1 0 12 255) ∧
    decode 0xE1C10182#32 = .ok (.bicShiftImm .al false 1 0 3 .lsl 2) ∧
    decode 0xE1D10372#32 = .ok (.bicShiftReg .al true 1 0 3 .ror 2) := by
  decide +kernel

theorem test_decode_mvn :
    decode 0xE3E00CFF#32 = .ok (.mvnImm .al false 0 12 255) ∧
    decode 0xE1E00182#32 = .ok (.mvnShiftImm .al false 0 3 .lsl 2) ∧
    decode 0xE1F00372#32 = .ok (.mvnShiftReg .al true 0 3 .ror 2) := by
  decide +kernel

theorem test_decode_mul :
    decode 0xE0000291#32 = .ok (.mul .al false 0 2 1) := by
  decide +kernel

theorem test_decode_mla :
    decode 0xE0203291#32 = .ok (.mla .al false 0 3 2 1) := by
  decide +kernel

theorem test_decode_umull :
    decode 0xE0810392#32 = .ok (.umull .al false 1 0 3 2) := by
  decide +kernel

theorem test_decode_umlal :
    decode 0xE0A10392#32 = .ok (.umlal .al false 1 0 3 2) := by
  decide +kernel

theorem test_decode_smull :
    decode 0xE0C10392#32 = .ok (.smull .al false 1 0 3 2) := by
  decide +kernel

theorem test_decode_smlal :
    decode 0xE0E10392#32 = .ok (.smlal .al false 1 0 3 2) := by
  decide +kernel

theorem test_decode_b :
    decode 0xEAFFFFFC#32 = .ok (.b .al 0xfffffc) := by
  decide +kernel

theorem test_decode_bl :
    decode 0xEB00003E#32 = .ok (.bl .al 62) := by
  decide +kernel

theorem test_decode_bx :
    decode 0xE12FFF1E#32 = .ok (.bx .al 14) := by
  decide +kernel

theorem test_decode_blx :
    decode 0xE12FFF33#32 = .ok (.blxReg .al 3) ∧
    decode 0xFB000002#32 = .ok (.blxLabel true 2) := by
  decide +kernel

theorem test_decode_mrs :
    decode 0xE10F0000#32 = .ok (.mrs .al .cpsr 0) := by
  decide +kernel

theorem test_decode_msr :
    decode 0xE328F20F#32 = .ok (.msrImm .al .cpsr 8 2 15) ∧
    decode 0xE121F000#32 = .ok (.msrReg .al .cpsr 1 0) := by
  decide +kernel

theorem test_decode_ldr :
    decode 0xE5910004#32 = .ok (.ldrImmPre .al true false 1 0 4) ∧
    decode 0xE5310004#32 = .ok (.ldrImmPre .al false true 1 0 4) ∧
    decode 0xE4910004#32 = .ok (.ldrImmPost .al true 1 0 4) ∧
    decode 0xE7910102#32 = .ok (.ldrRegPre .al true false 1 0 2 .lsl 2) ∧
    decode 0xE6110002#32 = .ok (.ldrRegPost .al false 1 0 0 .lsl 2) := by
  decide +kernel

theorem test_decode_str :
    decode 0xE5810004#32 = .ok (.strImmPre .al true false 1 0 4) ∧
    decode 0xE5210004#32 = .ok (.strImmPre .al false true 1 0 4) ∧
    decode 0xE4810004#32 = .ok (.strImmPost .al true 1 0 4) ∧
    decode 0xE7810102#32 = .ok (.strRegPre .al true false 1 0 2 .lsl 2) ∧
    decode 0xE6010002#32 = .ok (.strRegPost .al false 1 0 0 .lsl 2) := by
  decide +kernel

theorem test_decode_ldrb :
    decode 0xE5D10004#32 = .ok (.ldrbImmPre .al true false 1 0 4) ∧
    decode 0xE5710004#32 = .ok (.ldrbImmPre .al false true 1 0 4) ∧
    decode 0xE4D10004#32 = .ok (.ldrbImmPost .al true 1 0 4) ∧
    decode 0xE7D10102#32 = .ok (.ldrbRegPre .al true false 1 0 2 .lsl 2) ∧
    decode 0xE6510002#32 = .ok (.ldrbRegPost .al false 1 0 0 .lsl 2) := by
  decide +kernel

theorem test_decode_strb :
    decode 0xE5C10004#32 = .ok (.strbImmPre .al true false 1 0 4) ∧
    decode 0xE5610004#32 = .ok (.strbImmPre .al false true 1 0 4) ∧
    decode 0xE4C10004#32 = .ok (.strbImmPost .al true 1 0 4) ∧
    decode 0xE7C10102#32 = .ok (.strbRegPre .al true false 1 0 2 .lsl 2) ∧
    decode 0xE6410002#32 = .ok (.strbRegPost .al false 1 0 0 .lsl 2) := by
  decide +kernel

theorem test_decode_ldrt :
    decode 0xE4B10004#32 = .ok (.ldrtImm .al true 1 0 4) ∧
    decode 0xE6B10022#32 = .ok (.ldrtReg .al true 1 0 0 .lsr 2) := by
  decide +kernel

theorem test_decode_strt :
    decode 0xE4A10004#32 = .ok (.strtImm .al true 1 0 4) ∧
    decode 0xE6A10022#32 = .ok (.strtReg .al true 1 0 0 .lsr 2) := by
  decide +kernel

theorem test_decode_ldrbt :
    decode 0xE4F10004#32 = .ok (.ldrbtImm .al true 1 0 4) ∧
    decode 0xE6F10022#32 = .ok (.ldrbtReg .al true 1 0 0 .lsr 2) := by
  decide +kernel

theorem test_decode_strbt :
    decode 0xE4E10004#32 = .ok (.strbtImm .al true 1 0 4) ∧
    decode 0xE6E10022#32 = .ok (.strbtReg .al true 1 0 0 .lsr 2) := by
  decide +kernel

theorem test_decode_ldrh :
    decode 0xE1D101B2#32 = .ok (.ldrhImmPre .al true false 1 0 1 2) ∧
    decode 0xE0510FBE#32 = .ok (.ldrhImmPost .al false 1 0 15 14) ∧
    decode 0xE13100B2#32 = .ok (.ldrhRegPre .al false true 1 0 2) ∧
    decode 0xE09100B2#32 = .ok (.ldrhRegPost .al true 1 0 2) := by
  decide +kernel

theorem test_decode_strh :
    decode 0xE1C101B2#32 = .ok (.strhImmPre .al true false 1 0 1 2) ∧
    decode 0xE0410FBE#32 = .ok (.strhImmPost .al false 1 0 15 14) ∧
    decode 0xE12100B2#32 = .ok (.strhRegPre .al false true 1 0 2) ∧
    decode 0xE08100B2#32 = .ok (.strhRegPost .al true 1 0 2) := by
  decide +kernel

theorem test_decode_ldrsb :
    decode 0xE1D101D2#32 = .ok (.ldrsbImmPre .al true false 1 0 1 2) ∧
    decode 0xE0510FDE#32 = .ok (.ldrsbImmPost .al false 1 0 15 14) ∧
    decode 0xE13100D2#32 = .ok (.ldrsbRegPre .al false true 1 0 2) ∧
    decode 0xE09100D2#32 = .ok (.ldrsbRegPost .al true 1 0 2) := by
  decide +kernel

theorem test_decode_ldrsh :
    decode 0xE1D101F2#32 = .ok (.ldrshImmPre .al true false 1 0 1 2) ∧
    decode 0xE0510FFE#32 = .ok (.ldrshImmPost .al false 1 0 15 14) ∧
    decode 0xE13100F2#32 = .ok (.ldrshRegPre .al false true 1 0 2) ∧
    decode 0xE09100F2#32 = .ok (.ldrshRegPost .al true 1 0 2) := by
  decide +kernel

theorem test_decode_undefined :
    decode 0xE7F000F0#32 = .ok (.undefined .al 0xf8007 0) ∧
    decode 0xE6000010#32 = .ok (.undefined .al 0 0) := by
  decide +kernel

/-- Section 11: no row, or a fixed bit broken. -/
theorem test_decode_refuses :
    decode 0xEF000000#32 = .error .notInScope ∧
    decode 0xE8BD8000#32 = .error .notInScope ∧
    decode 0xEE000010#32 = .error .notInScope ∧
    decode 0xE1000090#32 = .error .notInScope ∧
    decode 0xE16F0F10#32 = .error .notInScope ∧
    decode 0xE1200070#32 = .error .notInScope ∧
    decode 0xE1A11001#32 = .error .notInScope ∧
    decode 0xE1513002#32 = .error .notInScope ∧
    decode 0xE1000000#32 = .error .notInScope ∧
    decode 0xE10F0001#32 = .error .notInScope ∧
    decode 0xE121E000#32 = .error .notInScope ∧
    decode 0xE12FFE1E#32 = .error .notInScope ∧
    decode 0xE19101B2#32 = .error .notInScope ∧
    decode 0xE1C100D0#32 = .error .notInScope ∧
    decode 0xE1C100F0#32 = .error .notInScope ∧
    decode 0xE0400291#32 = .error .notInScope ∧
    decode 0xE0600291#32 = .error .notInScope ∧
    decode 0xE3000000#32 = .error .notInScope := by
  decide +kernel

theorem test_decode_refuses_cond1111 : decode 0xF57FF000#32 = .error .cond1111 := by
  decide +kernel

/-- The words the host gives: bit 0 is the least significant bit of the word. -/
theorem test_decodeTableWord :
    decodeTableWord 32 0xE2010CFF = some (.andImm .al false 1 0 12 0xFF) ∧
    decodeTableWord 32 0xE8BD8000 = none := by
  decide +kernel

/-! ## Single steps -/

/-- A state in a mode with the given flags and registers, the word at 0x8000 the next
instruction, and the sixteen bytes of section 9 at 0x1000. -/
def start (m : Mode) (nzcv : BitVec 4) (masked : Bool) (w : Nat) (rs : List (PhysReg × Word)) :
    State :=
  let s := rs.foldl (fun s r => s.setReg r.1 r.2) State.reset
  let s := { s with
    pc := 0x8000
    cpsr := { n := nzcv.getLsbD 3, z := nzcv.getLsbD 2, c := nzcv.getLsbD 1, v := nzcv.getLsbD 0
              i := masked, f := masked, t := false, mode := m } }
  (((s.writeWord 0x1000 0x33221100).writeWord 0x1004 0x77665544).writeWord 0x1008
    0xBBAA9988).writeWord 0x100C 0xFFEEDDCC |>.withFetchWord 32 w

/-- What a step leaves, if it answers a next state. -/
def after (r : Result) (view : State → List Word) : Option (List Word) :=
  match r with
  | .next s => some (view s)
  | .fault _ | .refused _ => none

/-- The refusal, if it answers one. -/
def refusal (r : Result) : Option Refusal :=
  match r with
  | .refused r => some r
  | .next _ | .fault _ => none

/-- A flag as a word. -/
def flag (b : Bool) : Word := if b then 1 else 0

/-- MOVS R0, R2, ASR #32. -/
theorem test_i_9_mov :
    after (step (start .svc 0b0000#4 true 0xE1B00042 [(.r2, 0x80000001)]))
      (fun t => [t.pc, t.reg .r0, t.cpsr.toWord]) =
    some [0x00008004, 0xFFFFFFFF, 0xA00000D3] := by
  decide +kernel

/-- MOVS R15, R14 (svc, SPSR_svc = 0x60000010). -/
theorem test_p_7_mov :
    after (step { start .svc 0b1001#4 true 0xE1B0F00E [(.r14_svc, 0x00009000)] with
      spsr := (State.reset.spsr.set .svc
      { n := false, z := true, c := true, v := false, i := false, f := false, t := false,
          m := 0x10 }) })
      (fun t => [t.pc, t.cpsr.toWord]) =
    some [0x00009000, 0x60000010] := by
  decide +kernel

/-- MOV R0, R0, LSR R1. -/
theorem test_s1_2_mov :
    after (step (start .svc 0b0000#4 true 0xE1A00130 [(.r0, 0x80000004), (.r1, 0x00000120)]))
      (fun t => [t.pc, t.reg .r0, t.cpsr.toWord]) =
    some [0x00008004, 0x00000000, 0x000000D3] := by
  decide +kernel

/-- MOV R0, R0, LSR R1. -/
theorem test_s1_3_mov :
    after (step (start .svc 0b0000#4 true 0xE1A00130 [(.r0, 0x80000004), (.r1, 0x00000002)]))
      (fun t => [t.pc, t.reg .r0, t.cpsr.toWord]) =
    some [0x00008004, 0x20000001, 0x000000D3] := by
  decide +kernel

/-- MOVS R0, #0xFF000000. -/
theorem test_m_2_mov :
    after (step (start .svc 0b0000#4 true 0xE3B004FF []))
      (fun t => [t.pc, t.reg .r0, t.cpsr.toWord]) =
    some [0x00008004, 0xFF000000, 0xA00000D3] := by
  decide +kernel

/-- MOVS R0, #0 (rotate 1; same value, other word). -/
theorem test_m_6_mov :
    after (step (start .svc 0b0010#4 true 0xE3B00100 []))
      (fun t => [t.pc, t.reg .r0, t.cpsr.toWord]) =
    some [0x00008004, 0x00000000, 0x400000D3] := by
  decide +kernel

/-- ANDS R0, R1, #0x80000000. -/
theorem test_m_7_and :
    after (step (start .svc 0b0000#4 true 0xE2110102 [(.r1, 0x7FFFFFFF)]))
      (fun t => [t.pc, t.reg .r0, t.cpsr.toWord]) =
    some [0x00008004, 0x00000000, 0x600000D3] := by
  decide +kernel

/-- ANDS R0, R1, R2. -/
theorem test_d_2_and :
    after (step (start .svc 0b1011#4 true 0xE0110002 [(.r1, 0xF0F0F0F0), (.r2, 0x0F0F0F0F)]))
      (fun t => [t.pc, t.reg .r0, t.cpsr.toWord]) =
    some [0x00008004, 0x00000000, 0x700000D3] := by
  decide +kernel

/-- EORS R0, R1, R2. -/
theorem test_d_3_eor :
    after (step (start .svc 0b0000#4 true 0xE0310002 [(.r1, 0xFFFFFFFF), (.r2, 0x7FFFFFFF)]))
      (fun t => [t.pc, t.reg .r0, t.cpsr.toWord]) =
    some [0x00008004, 0x80000000, 0x800000D3] := by
  decide +kernel

/-- SUBS R0, R1, R2. -/
theorem test_d_5_sub :
    after (step (start .svc 0b0000#4 true 0xE0510002 [(.r1, 0x00000005), (.r2, 0x00000007)]))
      (fun t => [t.pc, t.reg .r0, t.cpsr.toWord]) =
    some [0x00008004, 0xFFFFFFFE, 0x800000D3] := by
  decide +kernel

/-- SUBS R0, R1, R2. -/
theorem test_d_7_sub :
    after (step (start .svc 0b0000#4 true 0xE0510002 [(.r1, 0x00000000), (.r2, 0x80000000)]))
      (fun t => [t.pc, t.reg .r0, t.cpsr.toWord]) =
    some [0x00008004, 0x80000000, 0x900000D3] := by
  decide +kernel

/-- RSBS R0, R1, R2. -/
theorem test_d_8_rsb :
    after (step (start .svc 0b0000#4 true 0xE0710002 [(.r1, 0x00000007), (.r2, 0x00000005)]))
      (fun t => [t.pc, t.reg .r0, t.cpsr.toWord]) =
    some [0x00008004, 0xFFFFFFFE, 0x800000D3] := by
  decide +kernel

/-- ADDS R0, R1, R2. -/
theorem test_d_11_add :
    after (step (start .svc 0b0000#4 true 0xE0910002 [(.r1, 0x7FFFFFFF), (.r2, 0x00000001)]))
      (fun t => [t.pc, t.reg .r0, t.cpsr.toWord]) =
    some [0x00008004, 0x80000000, 0x900000D3] := by
  decide +kernel

/-- ADDS R0, R1, R2. -/
theorem test_d_12_add :
    after (step (start .svc 0b0000#4 true 0xE0910002 [(.r1, 0x80000000), (.r2, 0x80000000)]))
      (fun t => [t.pc, t.reg .r0, t.cpsr.toWord]) =
    some [0x00008004, 0x00000000, 0x700000D3] := by
  decide +kernel

/-- ADCS R0, R1, R2. -/
theorem test_d_13_adc :
    after (step (start .svc 0b0010#4 true 0xE0B10002 [(.r1, 0xFFFFFFFF), (.r2, 0x00000000)]))
      (fun t => [t.pc, t.reg .r0, t.cpsr.toWord]) =
    some [0x00008004, 0x00000000, 0x600000D3] := by
  decide +kernel

/-- ADCS R0, R1, R2. -/
theorem test_d_14_adc :
    after (step (start .svc 0b0010#4 true 0xE0B10002 [(.r1, 0x7FFFFFFF), (.r2, 0x00000000)]))
      (fun t => [t.pc, t.reg .r0, t.cpsr.toWord]) =
    some [0x00008004, 0x80000000, 0x900000D3] := by
  decide +kernel

/-- SBCS R0, R1, R2. -/
theorem test_d_17_sbc :
    after (step (start .svc 0b0000#4 true 0xE0D10002 [(.r1, 0x00000005), (.r2, 0x00000005)]))
      (fun t => [t.pc, t.reg .r0, t.cpsr.toWord]) =
    some [0x00008004, 0xFFFFFFFF, 0x800000D3] := by
  decide +kernel

/-- SBCS R0, R1, R2. -/
theorem test_d_18_sbc :
    after (step (start .svc 0b0000#4 true 0xE0D10002 [(.r1, 0x00000000), (.r2, 0xFFFFFFFF)]))
      (fun t => [t.pc, t.reg .r0, t.cpsr.toWord]) =
    some [0x00008004, 0x00000000, 0x400000D3] := by
  decide +kernel

/-- RSCS R0, R1, R2. -/
theorem test_d_19_rsc :
    after (step (start .svc 0b0010#4 true 0xE0F10002 [(.r1, 0x00000005), (.r2, 0x00000007)]))
      (fun t => [t.pc, t.reg .r0, t.cpsr.toWord]) =
    some [0x00008004, 0x00000002, 0x200000D3] := by
  decide +kernel

/-- RSCS R0, R1, R2. -/
theorem test_d_20_rsc :
    after (step (start .svc 0b0000#4 true 0xE0F10002 [(.r1, 0x00000005), (.r2, 0x00000007)]))
      (fun t => [t.pc, t.reg .r0, t.cpsr.toWord]) =
    some [0x00008004, 0x00000001, 0x200000D3] := by
  decide +kernel

/-- ORRS R0, R1, R2. -/
theorem test_d_21_orr :
    after (step (start .svc 0b0000#4 true 0xE1910002 [(.r1, 0x0000FF00), (.r2, 0x00FF0000)]))
      (fun t => [t.pc, t.reg .r0, t.cpsr.toWord]) =
    some [0x00008004, 0x00FFFF00, 0x000000D3] := by
  decide +kernel

/-- BICS R0, R1, R2. -/
theorem test_d_22_bic :
    after (step (start .svc 0b0000#4 true 0xE1D10002 [(.r1, 0xFFFFFFFF), (.r2, 0x0000FFFF)]))
      (fun t => [t.pc, t.reg .r0, t.cpsr.toWord]) =
    some [0x00008004, 0xFFFF0000, 0x800000D3] := by
  decide +kernel

/-- TST R1, R2. -/
theorem test_d_24_tst :
    after (step (start .svc 0b0011#4 true 0xE1110002 [(.r1, 0x000000F0), (.r2, 0x0000000F)]))
      (fun t => [t.pc, t.cpsr.toWord]) =
    some [0x00008004, 0x700000D3] := by
  decide +kernel

/-- TST R1, R2, LSL #4. -/
theorem test_d_25_tst :
    after (step (start .svc 0b0011#4 true 0xE1110202 [(.r1, 0x000000F0), (.r2, 0x0000000F)]))
      (fun t => [t.pc, t.cpsr.toWord]) =
    some [0x00008004, 0x100000D3] := by
  decide +kernel

/-- TEQ R1, R2. -/
theorem test_d_26_teq :
    after (step (start .svc 0b0000#4 true 0xE1310002 [(.r1, 0x80000000), (.r2, 0x00000000)]))
      (fun t => [t.pc, t.cpsr.toWord]) =
    some [0x00008004, 0x800000D3] := by
  decide +kernel

/-- CMP R1, R2. -/
theorem test_d_27_cmp :
    after (step (start .svc 0b0000#4 true 0xE1510002 [(.r1, 0x00000003), (.r2, 0x00000004)]))
      (fun t => [t.pc, t.cpsr.toWord]) =
    some [0x00008004, 0x800000D3] := by
  decide +kernel

/-- CMP R1, R2. -/
theorem test_d_29_cmp :
    after (step (start .svc 0b0000#4 true 0xE1510002 [(.r1, 0x7FFFFFFF), (.r2, 0xFFFFFFFF)]))
      (fun t => [t.pc, t.cpsr.toWord]) =
    some [0x00008004, 0x900000D3] := by
  decide +kernel

/-- CMN R1, R2. -/
theorem test_d_30_cmn :
    after (step (start .svc 0b0000#4 true 0xE1710002 [(.r1, 0x00000001), (.r2, 0xFFFFFFFF)]))
      (fun t => [t.pc, t.cpsr.toWord]) =
    some [0x00008004, 0x600000D3] := by
  decide +kernel

/-- MVNS R0, R2. -/
theorem test_d_32_mvn :
    after (step (start .svc 0b0000#4 true 0xE1F00002 [(.r2, 0x00000000)]))
      (fun t => [t.pc, t.reg .r0, t.cpsr.toWord]) =
    some [0x00008004, 0xFFFFFFFF, 0x800000D3] := by
  decide +kernel

/-- MVN R0, #0xFF. -/
theorem test_d_33_mvn :
    after (step (start .svc 0b0000#4 true 0xE3E000FF []))
      (fun t => [t.pc, t.reg .r0, t.cpsr.toWord]) =
    some [0x00008004, 0xFFFFFF00, 0x000000D3] := by
  decide +kernel

/-- ADD R0, R15, #8. -/
theorem test_p_1_add :
    after (step (start .svc 0b0000#4 true 0xE28F0008 []))
      (fun t => [t.pc, t.reg .r0, t.cpsr.toWord]) =
    some [0x00008004, 0x00008010, 0x000000D3] := by
  decide +kernel

/-- SUBS R15, R14, #4 (irq, SPSR_irq = 0x8000001F). -/
theorem test_p_8_sub :
    after (step { start .irq 0b0000#4 true 0xE25EF004 [(.r14_irq, 0x00009004)] with
      spsr := (State.reset.spsr.set .irq
      { n := true, z := false, c := false, v := false, i := false, f := false, t := false,
          m := 0x1F }) })
      (fun t => [t.pc, t.cpsr.toWord]) =
    some [0x00009000, 0x8000001F] := by
  decide +kernel

/-- MULS Rd=R0 Rm=R1 Rs=R2. -/
theorem test_x_3_mul :
    after (step (start .svc 0b1011#4 true 0xE0100291 [(.r1, 0x00010000), (.r2, 0x00010000)]))
      (fun t => [t.pc, t.reg .r0, flag t.cpsr.n, flag t.cpsr.z]) =
    some [0x00008004, 0x00000000, 0, 1] := by
  decide +kernel

/-- MUL Rd=R0 Rm=R1 Rs=R1 (square). -/
theorem test_x_5_mul :
    after (step (start .svc 0b0000#4 true 0xE0000191 [(.r1, 0xFFFFFFFF)]))
      (fun t => [t.pc, t.reg .r0, t.cpsr.toWord]) =
    some [0x00008004, 0x00000001, 0x000000D3] := by
  decide +kernel

/-- MLA Rd=R0 Rm=R1 Rs=R2 Rn=R0 (accumulate in place). -/
theorem test_x_7_mla :
    after (step (start .svc 0b0000#4 true 0xE0200291 [(.r0, 0xFFFFFFFF), (.r1, 0x00000001), (.r2,
        0x00000001)]))
      (fun t => [t.pc, t.reg .r0, t.cpsr.toWord]) =
    some [0x00008004, 0x00000000, 0x000000D3] := by
  decide +kernel

/-- MLAS Rd=R0 Rm=R1 Rs=R2 Rn=R3. -/
theorem test_x_8_mla :
    after (step (start .svc 0b0000#4 true 0xE0303291 [(.r1, 0x00000002), (.r2, 0x00000003), (.r3,
        0xFFFFFFFA)]))
      (fun t => [t.pc, t.reg .r0, flag t.cpsr.n, flag t.cpsr.z]) =
    some [0x00008004, 0x00000000, 0, 1] := by
  decide +kernel

/-- UMULL RdHi=R1 RdLo=R0 Rm=R2 Rs=R3. -/
theorem test_x_9_umull :
    after (step (start .svc 0b0000#4 true 0xE0810392 [(.r2, 0xFFFFFFFF), (.r3, 0xFFFFFFFF)]))
      (fun t => [t.pc, t.reg .r0, t.reg .r1, t.cpsr.toWord]) =
    some [0x00008004, 0x00000001, 0xFFFFFFFE, 0x000000D3] := by
  decide +kernel

/-- UMULLS RdHi=R1 RdLo=R0 Rm=R2 Rs=R3. -/
theorem test_x_10_umull :
    after (step (start .svc 0b0000#4 true 0xE0910392 [(.r2, 0x80000000), (.r3, 0x00000002)]))
      (fun t => [t.pc, t.reg .r0, t.reg .r1, flag t.cpsr.n, flag t.cpsr.z]) =
    some [0x00008004, 0x00000000, 0x00000001, 0, 0] := by
  decide +kernel

/-- UMLAL RdHi=R1 RdLo=R0 Rm=R2 Rs=R3. -/
theorem test_x_12_umlal :
    after (step (start .svc 0b0000#4 true 0xE0A10392 [(.r0, 0xFFFFFFFF), (.r1, 0x00000000), (.r2,
        0x00000002), (.r3, 0x00000003)]))
      (fun t => [t.pc, t.reg .r0, t.reg .r1, t.cpsr.toWord]) =
    some [0x00008004, 0x00000005, 0x00000001, 0x000000D3] := by
  decide +kernel

/-- UMLAL RdHi=R1 RdLo=R0 Rm=R2 Rs=R3. -/
theorem test_x_13_umlal :
    after (step (start .svc 0b0000#4 true 0xE0A10392 [(.r0, 0xFFFFFFFF), (.r1, 0xFFFFFFFF), (.r2,
        0x00000001), (.r3, 0x00000001)]))
      (fun t => [t.pc, t.reg .r0, t.reg .r1, t.cpsr.toWord]) =
    some [0x00008004, 0x00000000, 0x00000000, 0x000000D3] := by
  decide +kernel

/-- SMULL RdHi=R1 RdLo=R0 Rm=R2 Rs=R3. -/
theorem test_x_14_smull :
    after (step (start .svc 0b0000#4 true 0xE0C10392 [(.r2, 0xFFFFFFFF), (.r3, 0x00000002)]))
      (fun t => [t.pc, t.reg .r0, t.reg .r1, t.cpsr.toWord]) =
    some [0x00008004, 0xFFFFFFFE, 0xFFFFFFFF, 0x000000D3] := by
  decide +kernel

/-- SMULL RdHi=R1 RdLo=R0 Rm=R2 Rs=R3. -/
theorem test_x_15_smull :
    after (step (start .svc 0b0000#4 true 0xE0C10392 [(.r2, 0x80000000), (.r3, 0x80000000)]))
      (fun t => [t.pc, t.reg .r0, t.reg .r1, t.cpsr.toWord]) =
    some [0x00008004, 0x00000000, 0x40000000, 0x000000D3] := by
  decide +kernel

/-- SMLAL RdHi=R1 RdLo=R0 Rm=R2 Rs=R3. -/
theorem test_x_17_smlal :
    after (step (start .svc 0b0000#4 true 0xE0E10392 [(.r0, 0x00000001), (.r1, 0x00000000), (.r2,
        0xFFFFFFFF), (.r3, 0x00000002)]))
      (fun t => [t.pc, t.reg .r0, t.reg .r1, t.cpsr.toWord]) =
    some [0x00008004, 0xFFFFFFFF, 0xFFFFFFFF, 0x000000D3] := by
  decide +kernel

/-- SMLAL RdHi=R1 RdLo=R0 Rm=R2 Rs=R3. -/
theorem test_x_18_smlal :
    after (step (start .svc 0b0000#4 true 0xE0E10392 [(.r0, 0x00000000), (.r1, 0x80000000), (.r2,
        0xFFFFFFFF), (.r3, 0x00000001)]))
      (fun t => [t.pc, t.reg .r0, t.reg .r1, t.cpsr.toWord]) =
    some [0x00008004, 0xFFFFFFFF, 0x7FFFFFFF, 0x000000D3] := by
  decide +kernel

/-- B 0x00007000 (backwards). -/
theorem test_b_5_b :
    after (step (start .svc 0b0000#4 true 0xEAFFFBFE []))
      (fun t => [t.pc, t.cpsr.toWord]) =
    some [0x00007000, 0x000000D3] := by
  decide +kernel

/-- BEQ 0x00008010 (Z = 1). -/
theorem test_b_7_b :
    after (step (start .svc 0b0100#4 true 0x0A000002 []))
      (fun t => [t.pc, t.cpsr.toWord]) =
    some [0x00008010, 0x400000D3] := by
  decide +kernel

/-- BL 0x00008100. -/
theorem test_b_8_bl :
    after (step (start .svc 0b0000#4 true 0xEB00003E []))
      (fun t => [t.pc, t.reg .r14_svc, t.cpsr.toWord]) =
    some [0x00008100, 0x00008004, 0x000000D3] := by
  decide +kernel

/-- BLLT 0x00008100 (N = 1, V = 0). -/
theorem test_b_10_bl :
    after (step (start .svc 0b1000#4 true 0xBB00003E []))
      (fun t => [t.pc, t.reg .r14_svc, t.cpsr.toWord]) =
    some [0x00008100, 0x00008004, 0x800000D3] := by
  decide +kernel

/-- BX R0 (bit 0 set: to Thumb). -/
theorem test_b_12_bx :
    after (step (start .svc 0b0000#4 true 0xE12FFF10 [(.r0, 0x00009001)]))
      (fun t => [t.pc, t.cpsr.toWord]) =
    some [0x00009000, 0x000000F3] := by
  decide +kernel

/-- BX R0 (bits 1:0 = 10). -/
theorem test_b_13_bx :
    refusal (step (start .svc 0b0000#4 true 0xE12FFF10 [(.r0,
        0x00009002)])) = some .bxMisaligned := by
  decide +kernel

/-- BLX R14 (target read before link written). -/
theorem test_b_16_blx :
    after (step (start .svc 0b0000#4 true 0xE12FFF3E [(.r14_svc, 0x00009000)]))
      (fun t => [t.pc, t.reg .r14_svc, t.cpsr.toWord]) =
    some [0x00009000, 0x00008004, 0x000000D3] := by
  decide +kernel

/-- BLX 0x00008012. -/
theorem test_b_17_blx :
    after (step (start .svc 0b0000#4 true 0xFB000002 []))
      (fun t => [t.pc, t.reg .r14_svc, t.cpsr.toWord]) =
    some [0x00008012, 0x00008004, 0x000000F3] := by
  decide +kernel

/-- MRS R0, CPSR. -/
theorem test_t_1_mrs :
    after (step (start .svc 0b0110#4 true 0xE10F0000 []))
      (fun t => [t.pc, t.reg .r0, t.cpsr.toWord]) =
    some [0x00008004, 0x600000D3, 0x600000D3] := by
  decide +kernel

/-- MRS R0, SPSR (svc, SPSR_svc = 0x80000010). -/
theorem test_t_3_mrs :
    after (step { start .svc 0b0000#4 true 0xE14F0000 [] with
      spsr := (State.reset.spsr.set .svc
      { n := true, z := false, c := false, v := false, i := false, f := false, t := false,
          m := 0x10 }) })
      (fun t => [t.pc, t.reg .r0, t.cpsr.toWord]) =
    some [0x00008004, 0x80000010, 0x000000D3] := by
  decide +kernel

/-- MSR CPSR_f, #0x40000000 (usr). -/
theorem test_t_8_msr :
    after (step (start .usr 0b1011#4 true 0xE328F101 []))
      (fun t => [t.pc, t.cpsr.toWord]) =
    some [0x00008004, 0x400000D0] := by
  decide +kernel

/-- MSR CPSR_c, #0x1F (to sys). -/
theorem test_t_13_msr :
    after (step (start .svc 0b0000#4 true 0xE321F01F []))
      (fun t => [t.pc, t.cpsr.toWord]) =
    some [0x00008004, 0x0000001F] := by
  decide +kernel

/-- MSR CPSR_c, R0 (svc to irq, I = 1, F = 0). -/
theorem test_t_12_msr :
    after (step (start .svc 0b0000#4 true 0xE121F000 [(.r0, 0x00000092)]))
      (fun t => [t.pc, t.cpsr.toWord]) =
    some [0x00008004, 0x00000092] := by
  decide +kernel

/-- MSR SPSR_fc, R0 (svc). -/
theorem test_t_20_msr :
    after (step (start .svc 0b0000#4 true 0xE169F000 [(.r0, 0x60000030)]))
      (fun t => [t.pc, (t.spsr.get .svc).toWord, t.cpsr.toWord]) =
    some [0x00008004, 0x60000030, 0x000000D3] := by
  decide +kernel

/-- LDR R0, [R1, #4]!. -/
theorem test_l_4_ldr :
    after (step (start .svc 0b0000#4 true 0xE5B10004 [(.r1, 0x00001000)]))
      (fun t => [t.pc, t.reg .r0, t.reg .r1, t.cpsr.toWord]) =
    some [0x00008004, 0x77665544, 0x00001004, 0x000000D3] := by
  decide +kernel

/-- LDR R0, [R1, #0xFFF] (largest immediate). -/
theorem test_l_10_ldr :
    after (step (start .svc 0b0000#4 true 0xE5910FFF [(.r1, 0x00000009)]))
      (fun t => [t.pc, t.reg .r0, t.cpsr.toWord]) =
    some [0x00008004, 0xBBAA9988, 0x000000D3] := by
  decide +kernel

/-- LDR R0, [R1], #4. -/
theorem test_l_5_ldr :
    after (step (start .svc 0b0000#4 true 0xE4910004 [(.r1, 0x00001000)]))
      (fun t => [t.pc, t.reg .r0, t.reg .r1, t.cpsr.toWord]) =
    some [0x00008004, 0x33221100, 0x00001004, 0x000000D3] := by
  decide +kernel

/-- LDR R15, [R13], #4 (pop the return address). -/
theorem test_lp_4_ldr :
    after (step ((start .svc 0b0000#4 true 0xE49DF004 [(.r13_svc,
        0x00001010)]).writeWord 0x1010 0x00009000))
      (fun t => [t.pc, t.reg .r13_svc, t.cpsr.toWord]) =
    some [0x00009000, 0x00001014, 0x000000D3] := by
  decide +kernel

/-- LDR R0, [R1, R2, LSL #2]. -/
theorem test_l_6_ldr :
    after (step (start .svc 0b0000#4 true 0xE7910102 [(.r1, 0x00001000), (.r2, 0x00000003)]))
      (fun t => [t.pc, t.reg .r0, t.cpsr.toWord]) =
    some [0x00008004, 0xFFEEDDCC, 0x000000D3] := by
  decide +kernel

/-- LDR R0, [R1, R2, RRX] (C = 0). -/
theorem test_l_9_ldr :
    after (step (start .svc 0b0000#4 true 0xE7910062 [(.r1, 0x00001000), (.r2, 0x00000008)]))
      (fun t => [t.pc, t.reg .r0, t.cpsr.toWord]) =
    some [0x00008004, 0x77665544, 0x000000D3] := by
  decide +kernel

/-- LDR R0, [R1], -R2, ASR #1. -/
theorem test_l_8_ldr :
    after (step (start .svc 0b0000#4 true 0xE61100C2 [(.r1, 0x00001008), (.r2, 0x00000008)]))
      (fun t => [t.pc, t.reg .r0, t.reg .r1, t.cpsr.toWord]) =
    some [0x00008004, 0xBBAA9988, 0x00001004, 0x000000D3] := by
  decide +kernel

/-- LDRB R0, [R1, #15]. -/
theorem test_l_12_ldrb :
    after (step (start .svc 0b0000#4 true 0xE5D1000F [(.r1, 0x00001000)]))
      (fun t => [t.pc, t.reg .r0, t.cpsr.toWord]) =
    some [0x00008004, 0x000000FF, 0x000000D3] := by
  decide +kernel

/-- LDRB R0, [R1], #1. -/
theorem test_l_13_ldrb :
    after (step (start .svc 0b0000#4 true 0xE4D10001 [(.r1, 0x00001008)]))
      (fun t => [t.pc, t.reg .r0, t.reg .r1, t.cpsr.toWord]) =
    some [0x00008004, 0x00000088, 0x00001009, 0x000000D3] := by
  decide +kernel

/-- LDRSB R0, [R1, #8]. -/
theorem test_l_14_ldrsb :
    after (step (start .svc 0b0000#4 true 0xE1D100D8 [(.r1, 0x00001000)]))
      (fun t => [t.pc, t.reg .r0, t.cpsr.toWord]) =
    some [0x00008004, 0xFFFFFF88, 0x000000D3] := by
  decide +kernel

/-- LDRH R0, [R1, #8]. -/
theorem test_l_16_ldrh :
    after (step (start .svc 0b0000#4 true 0xE1D100B8 [(.r1, 0x00001000)]))
      (fun t => [t.pc, t.reg .r0, t.cpsr.toWord]) =
    some [0x00008004, 0x00009988, 0x000000D3] := by
  decide +kernel

/-- LDRH R0, [R1, R2]!. -/
theorem test_l_19_ldrh :
    after (step (start .svc 0b0000#4 true 0xE1B100B2 [(.r1, 0x00001000), (.r2, 0x00000002)]))
      (fun t => [t.pc, t.reg .r0, t.reg .r1, t.cpsr.toWord]) =
    some [0x00008004, 0x00003322, 0x00001002, 0x000000D3] := by
  decide +kernel

/-- LDRH R0, [R1], #-2. -/
theorem test_l_20_ldrh :
    after (step (start .svc 0b0000#4 true 0xE05100B2 [(.r1, 0x00001004)]))
      (fun t => [t.pc, t.reg .r0, t.reg .r1, t.cpsr.toWord]) =
    some [0x00008004, 0x00005544, 0x00001002, 0x000000D3] := by
  decide +kernel

/-- LDRSH R0, [R1, #8]. -/
theorem test_l_17_ldrsh :
    after (step (start .svc 0b0000#4 true 0xE1D100F8 [(.r1, 0x00001000)]))
      (fun t => [t.pc, t.reg .r0, t.cpsr.toWord]) =
    some [0x00008004, 0xFFFF9988, 0x000000D3] := by
  decide +kernel

/-- LDRT R0, [R1], #4. -/
theorem test_l_23_ldrt :
    after (step (start .svc 0b0000#4 true 0xE4B10004 [(.r1, 0x00001004)]))
      (fun t => [t.pc, t.reg .r0, t.reg .r1, t.cpsr.toWord]) =
    some [0x00008004, 0x77665544, 0x00001008, 0x000000D3] := by
  decide +kernel

/-- LDRBT R0, [R1], #1. -/
theorem test_l_24_ldrbt :
    after (step (start .svc 0b0000#4 true 0xE4F10001 [(.r1, 0x00001004)]))
      (fun t => [t.pc, t.reg .r0, t.reg .r1, t.cpsr.toWord]) =
    some [0x00008004, 0x00000044, 0x00001005, 0x000000D3] := by
  decide +kernel

/-- STR R0, [R1, #-4]!. -/
theorem test_l_26_str :
    after (step (start .svc 0b0000#4 true 0xE5210004 [(.r0, 0xAABBCCDD), (.r1, 0x00001000)]))
      (fun t => [t.pc, t.reg .r1, (t.readByte 0xFFC).setWidth 32, (t.readByte 0xFFD).setWidth 32,
          (t.readByte 0xFFE).setWidth 32, (t.readByte 0xFFF).setWidth 32, t.cpsr.toWord]) =
    some [0x00008004, 0x00000FFC, 0xDD, 0xCC, 0xBB, 0xAA, 0x000000D3] := by
  decide +kernel

/-- STR R0, [R1] (into program text). -/
theorem test_l_34_str :
    refusal (step (start .svc 0b0000#4 true 0xE5810000 [(.r0, 0x00000001), (.r1,
        0x00008000)])) = some .storeIntoProgramText := by
  decide +kernel

/-- STR R0, [R1], #4. -/
theorem test_l_27_str :
    after (step (start .svc 0b0000#4 true 0xE4810004 [(.r0, 0x01020304), (.r1, 0x00001010)]))
      (fun t => [t.pc, t.reg .r1, (t.readByte 0x1010).setWidth 32,
          (t.readByte 0x1011).setWidth 32, (t.readByte 0x1012).setWidth 32,
              (t.readByte 0x1013).setWidth 32, t.cpsr.toWord]) =
    some [0x00008004, 0x00001014, 0x04, 0x03, 0x02, 0x01, 0x000000D3] := by
  decide +kernel

/-- STRB R0, [R1, #3]. -/
theorem test_l_28_strb :
    after (step (start .svc 0b0000#4 true 0xE5C10003 [(.r0, 0x123456AB), (.r1, 0x00001000)]))
      (fun t => [t.pc, (t.readByte 0x1003).setWidth 32, t.cpsr.toWord]) =
    some [0x00008004, 0xAB, 0x000000D3] := by
  decide +kernel

/-- STRH R0, [R1, #2]. -/
theorem test_l_29_strh :
    after (step (start .svc 0b0000#4 true 0xE1C100B2 [(.r0, 0x1234ABCD), (.r1, 0x00001000)]))
      (fun t => [t.pc, (t.readByte 0x1002).setWidth 32, (t.readByte 0x1003).setWidth 32,
          t.cpsr.toWord]) =
    some [0x00008004, 0xCD, 0xAB, 0x000000D3] := by
  decide +kernel

/-- STRH R0, [R1, #-2]!. -/
theorem test_l_30_strh :
    after (step (start .svc 0b0000#4 true 0xE16100B2 [(.r0, 0x0000BEEF), (.r1, 0x00001000)]))
      (fun t => [t.pc, t.reg .r1, (t.readByte 0xFFE).setWidth 32, (t.readByte 0xFFF).setWidth 32,
          t.cpsr.toWord]) =
    some [0x00008004, 0x00000FFE, 0xEF, 0xBE, 0x000000D3] := by
  decide +kernel

/-- STRT R0, [R1], #4. -/
theorem test_l_31_strt :
    after (step (start .svc 0b0000#4 true 0xE4A10004 [(.r0, 0xCAFEF00D), (.r1, 0x00001000)]))
      (fun t => [t.pc, t.reg .r1, (t.readByte 0x1000).setWidth 32,
          (t.readByte 0x1001).setWidth 32, (t.readByte 0x1002).setWidth 32,
              (t.readByte 0x1003).setWidth 32, t.cpsr.toWord]) =
    some [0x00008004, 0x00001004, 0x0D, 0xF0, 0xFE, 0xCA, 0x000000D3] := by
  decide +kernel

/-- STRBT R0, [R1], #1. -/
theorem test_l_32_strbt :
    after (step (start .svc 0b0000#4 true 0xE4E10001 [(.r0, 0x0000005A), (.r1, 0x00001000)]))
      (fun t => [t.pc, t.reg .r1, (t.readByte 0x1000).setWidth 32, t.cpsr.toWord]) =
    some [0x00008004, 0x00001001, 0x5A, 0x000000D3] := by
  decide +kernel

/-- Undefined Instruction. -/
theorem test_e_1_exception :
    after (step (start .usr 0b0110#4 false 0xE7F000F0 []))
      (fun t => [t.pc, t.reg .r14_und, (t.spsr.get .und).toWord, t.cpsr.toWord]) =
    some [0x00000004, 0x00008004, 0x60000010, 0x6000009B] := by
  decide +kernel

/-- (undefined space) cond NE. -/
theorem test_c_1_undefined :
    after (step (start .svc 0b0100#4 true 0x17F000F0 []))
      (fun t => [t.pc, t.cpsr.toWord]) =
    some [0x00008004, 0x400000D3] := by
  decide +kernel

/-- FIQ_LINE and IRQ_LINE both asserted, I = F = 0. -/
theorem test_e_5_exception :
    after (step { start .usr 0b0000#4 false 0xE1A00000 [] with
      platform := { (start .usr 0 false 0xE1A00000 []).platform with irqAt := [0], fiqAt := [0] } })
      (fun t => [t.pc, t.reg .r14_fiq, (t.spsr.get .fiq).toWord, t.cpsr.toWord]) =
    some [0x0000001C, 0x00008004, 0x00000010, 0x000000D1] := by
  decide +kernel

/-- FIQ_LINE asserted, F = 0, in irq mode with I = 1 (FIQ pre-empts an IRQ handler). -/
theorem test_e_6_exception :
    after (step { start .irq 0b0000#4 true 0xE1A00000 [] with
      platform := { (start .usr 0 false 0xE1A00000 []).platform with fiqAt := [0] },
      cpsr := { Cpsr.reset with f := false, mode := .irq } })
      (fun t => [t.pc, t.reg .r14_fiq, (t.spsr.get .fiq).toWord, t.cpsr.toWord]) =
    some [0x0000001C, 0x00008004, 0x00000092, 0x000000D1] := by
  decide +kernel

/-- Data Abort. -/
theorem test_e_7_exception :
    after (step { start .usr 0b0000#4 false 0xE5910000 [(.r1, 0x00001000)] with
      platform := { (start .usr 0 false 0xE5910000 []).platform with
      aborts := [{ base := 0x1000, size := 4, fetch := false, read := true, write := false }] } })
      (fun t => [t.pc, t.reg .r14_abt, (t.spsr.get .abt).toWord, t.cpsr.toWord]) =
    some [0x00000010, 0x00008008, 0x00000010, 0x00000097] := by
  decide +kernel

/-- Prefetch Abort. -/
theorem test_e_8_exception :
    after (step { start .usr 0b0000#4 false 0xE1A00000 [] with
      platform := { (start .usr 0 false 0xE1A00000 []).platform with
      aborts := [{ base := 0x8000, size := 4, fetch := true, read := false, write := false }] } })
      (fun t => [t.pc, t.reg .r14_abt, (t.spsr.get .abt).toWord, t.cpsr.toWord]) =
    some [0x0000000C, 0x00008004, 0x00000010, 0x00000097] := by
  decide +kernel

/-! ## Witnesses: the hypotheses of each statement, met together, at boundary values -/

/-- Whether a result is a next state of which `p` holds. -/
def nextWith (r : Result) (p : State → Bool) : Bool :=
  match r with
  | .next s => p s
  | .fault _ | .refused _ => false

theorem next_of_nextWith {r : Result} {p : State → Bool} (h : nextWith r p = true) :
    ∃ t, r = .next t ∧ p t = true := by
  cases r with
  | next s => exact ⟨s, rfl, h⟩
  | fault _ => cases h
  | refused _ => cases h

/-- The state after reset, its pc elsewhere. -/
def atPc (pc : Word) : State := { State.reset with pc := pc }

/-- A state in a mode, one of its registers set. -/
def inMode (m : Mode) (i : Reg) (v : Word) : State :=
  { State.reset with cpsr := { Cpsr.reset with mode := m } }.writeReg i v

/-- The state after reset with another platform. -/
def onPlatform (p : Platform) : State := { State.reset with platform := p }

/-- A region of every address, for the given kinds of access. -/
def everywhere (fetch read write : Bool) : Region :=
  { base := 0, size := 4294967296, fetch := fetch, read := read, write := write }

theorem witness_EncodeOfDecode : ∃ w i, decode w = .ok i :=
  ⟨0xE0110372, .andShiftReg .al true 1 0 3 .ror 2, by decide +kernel⟩

theorem witness_ConditionFieldOnes :
    (bits 0xFB000002#32 28 4 = 0b1111#4 ∧ bits 0xFB000002#32 25 3 = 0b101#3) ∧
    (bits 0xF57FF000#32 28 4 = 0b1111#4 ∧ bits 0xF57FF000#32 25 3 ≠ 0b101#3) := by
  decide +kernel

theorem witness_ClassesOutOfScope :
    (bits 0xE8BD8000#32 28 4 ≠ 0b1111#4 ∧ bits 0xE8BD8000#32 25 3 = 0b100#3) ∧
    (bits 0xED900000#32 28 4 ≠ 0b1111#4 ∧ bits 0xED900000#32 25 3 = 0b110#3) ∧
    (bits 0xEF000000#32 28 4 ≠ 0b1111#4 ∧ bits 0xEF000000#32 25 3 = 0b111#3) := by
  decide +kernel

theorem witness_UndefinedSpace :
    (Cond.ofCode (bits 0x17F000F0#32 28 4) = some .ne ∧ bits 0x17F000F0#32 25 3 = 0b011#3 ∧
      bit 0x17F000F0#32 4 = true) ∧
    conditionPassed .ne State.reset.cpsr = true ∧
    conditionPassed .ne (start .usr 0b0100#4 false 0 []).cpsr = false ∧
    (atPc 0xFFFFFFF8).HasNext :=
  ⟨by decide +kernel, by decide, by decide +kernel, (by decide : (0xFFFFFFF8 : Nat) + 4 < 2 ^ 32)⟩

theorem no_row_of_all {w : Word} (h : opcodeRows.all (fun row => w &&& row.1 != row.2) = true) :
    ∀ row ∈ opcodeRows, w &&& row.1 ≠ row.2 :=
  fun row hrow => by simpa using List.all_eq_true.mp h row hrow

/-- MOV with Rn not 0, CMP with S = 0, MUL with bits 15:12 not 0, a reserved multiply code,
LDRH with a register and bits 11:8 not 0, LDRH with P = 0 and W = 1 match no row. -/
theorem witness_WordsOfNoRow_refused :
    ∀ w ∈ [0xE3A10001#32, 0xE3410001#32, 0xE0011392#32, 0xE0410392#32, 0xE19101B2#32,
        0xE03100B2#32], bits w 28 4 ≠ 0b1111#4 ∧ ∀ row ∈ opcodeRows, w &&& row.1 ≠ row.2 := by
  have key : [0xE3A10001#32, 0xE3410001#32, 0xE0011392#32, 0xE0410392#32, 0xE19101B2#32,
      0xE03100B2#32].all (fun w => decide (bits w 28 4 ≠ 0b1111#4) &&
        opcodeRows.all (fun row => w &&& row.1 != row.2)) = true := by decide +kernel
  intro w hw
  have h := List.all_eq_true.mp key w hw
  rw [Bool.and_eq_true] at h
  exact ⟨by simpa using h.1, no_row_of_all h.2⟩

theorem witness_WordsOfNoRow_read :
    bits 0xE0000392#32 28 4 ≠ 0b1111#4 ∧
    ∃ row ∈ opcodeRows, 0xE0000392#32 &&& row.1 = row.2 :=
  ⟨by decide, (0x0FE0F0F0, 0x00000090), by decide +kernel, by decide⟩

theorem witness_RegisterBanks : Mode.irq ≠ .fiq := by decide

theorem witness_RegisterReadWrite :
    (14 : Reg) ≠ 15 ∧ visible State.reset.cpsr.mode 14 ≠ some .r14 ∧
    visible State.reset.cpsr.mode 14 ≠ some .r14_fiq := by
  decide

theorem witness_FailedCondition :
    ∃ i c, conditionOf i = some c ∧ i.restriction = none ∧
      conditionPassed c (atPc 0xFFFFFFF8).cpsr = false ∧ (atPc 0xFFFFFFF8).HasNext ∧
      conditionPassed c (atPc 0xFFFFFFFC).cpsr = false ∧ ¬ (atPc 0xFFFFFFFC).HasNext :=
  ⟨.bl .eq 0, .eq, rfl, rfl, rfl, (by decide : (0xFFFFFFF8 : Nat) + 4 < 2 ^ 32), rfl,
    (by decide : ¬ (0xFFFFFFFC : Nat) + 4 < 2 ^ 32)⟩

/-- Each row of the restrictions, by an instruction that breaks it and no row before it. -/
theorem witness_RestrictionRefused :
    Instr.restriction (.ldrRegPost .eq true 1 0 0 .lsl 1) = some .writebackRmRn ∧
    (∃ d, dpView (.movShiftReg .al true 0 15 .ror 2) = some d ∧ d.shiftReadsR15) ∧
    (∃ x, transferView (.strhRegPre .al true false 1 0 15) = some x ∧
      x.am.offset.register = some 15) ∧
    (∃ x, transferView (.ldrImmPost .al true 15 0 4) = some x ∧
      x.am.offset.register ≠ some 15 ∧ x.am.wb = true ∧ x.am.rn = 15) ∧
    (∃ x, transferView (.strbtImm .al true 3 3 4) = some x ∧
      x.am.offset.register ≠ some 15 ∧ x.am.wb = true ∧ x.am.rn ≠ 15 ∧ x.am.rn = x.rd) ∧
    (∃ x, transferView (.ldrshRegPre .al true true 3 0 3) = some x ∧
      x.am.offset.register ≠ some 15 ∧ x.am.wb = true ∧ x.am.rn ≠ 15 ∧ x.am.rn ≠ x.rd ∧
      x.am.offset.register = some x.am.rn) ∧
    (∃ x, transferView (.strImmPre .al true false 1 15 0) = some x ∧ x.keepsOffsetRows ∧
      x.rd = 15 ∧ x.load = false ∧ x.width = .word) ∧
    (∃ x, transferView (.ldrbImmPre .al true false 15 15 0) = some x ∧ x.keepsOffsetRows ∧
      x.rd = 15 ∧ x.width ≠ .word) ∧
    (1 : Reg) ≠ 15 ∧ (2 : Reg) ≠ 15 ∧ (2 : Reg) ≠ 1 :=
  ⟨by decide, ⟨_, rfl, 15, .ror, 2, rfl, by decide⟩, ⟨_, rfl, by decide⟩, ⟨_, rfl, by decide⟩,
    ⟨_, rfl, by decide⟩, ⟨_, rfl, by decide⟩, ⟨_, rfl, ⟨by decide, by decide⟩, by decide⟩,
    ⟨_, rfl, ⟨by decide, by decide⟩, by decide⟩, by decide⟩

/-- R15 where it is allowed: shifted by a value, as a base without write-back, loaded. -/
theorem witness_NoOtherRestriction :
    (∃ d, dpView (.addShiftImm .al true 15 15 0 .lsl 15) = some d ∧ ¬ d.shiftReadsR15) ∧
    (∃ d, dpView (.addShiftReg .al true 14 14 14 .lsl 14) = some d ∧ ¬ d.shiftReadsR15) ∧
    (∃ x, transferView (.ldrImmPre .al true false 15 0 0) = some x ∧ x.keepsOffsetRows ∧
      x.rd ≠ 15) ∧
    (∃ x, transferView (.ldrRegPost .al true 1 15 0 .lsl 2) = some x ∧ x.keepsOffsetRows) ∧
    (∀ r ∈ [(0 : Reg), 1, 2, 3], r ≠ 15) ∧ (0 : Reg) ≠ 2 ∧ (0 : Reg) ≠ 1 ∧ (1 : Reg) ≠ 2 :=
  ⟨⟨_, rfl, fun ⟨_, _, _, h, _⟩ => by cases h⟩,
    ⟨_, rfl, fun ⟨_, _, _, h, h15⟩ => by injection h with h1 h2 h3; subst h1 h3; simp at h15⟩,
    ⟨_, rfl, ⟨by decide, by decide⟩, by decide⟩, ⟨_, rfl, by decide, by decide⟩, by decide⟩

theorem witness_ShiftByValue : (1 : BitVec 5) ≠ 0 ∧ (31 : BitVec 5) ≠ 0 := by decide

/-- Each clause at the ends of its range: 1, 31; 33, 255; 32, 255. -/
theorem witness_ShiftByRegister :
    (∀ n ∈ [1#8, 31#8], 1 ≤ n.toNat ∧ n.toNat ≤ 31) ∧ (∀ n ∈ [33#8, 255#8], 33 ≤ n.toNat) ∧
    ∀ n ∈ [32#8, 255#8], 32 ≤ n.toNat := by
  decide

theorem reset_hasNext : State.reset.HasNext := (by decide : (0 : Nat) + 4 < 2 ^ 32)

theorem witness_LogicalEffect : ∃ d, dpView (.orrShiftReg .al true 1 0 3 .ror 2) = some d ∧
    d.op ∈ [DpOp.and, .eor, .orr, .bic] ∧ d.operand.restriction d.rn d.rd = none ∧
    conditionPassed d.c State.reset.cpsr = true ∧ d.rd ≠ 15 :=
  ⟨_, rfl, by decide, rfl, rfl, by decide⟩

theorem witness_ArithmeticEffect : ∃ d, dpView (.rscImm .ne true 15 14 4 0xFF) = some d ∧
    d.op ∈ [DpOp.sub, .rsb, .add, .adc, .sbc, .rsc] ∧ d.operand.restriction d.rn d.rd = none ∧
    conditionPassed d.c State.reset.cpsr = true ∧ d.rd ≠ 15 :=
  ⟨_, rfl, by decide, rfl, rfl, by decide⟩

theorem witness_MoveEffect : ∃ d, dpView (.mvnShiftImm .al true 0 0 .ror 15) = some d ∧
    d.op ∈ [DpOp.mov, .mvn] ∧ d.operand.restriction d.rn d.rd = none ∧
    conditionPassed d.c State.reset.cpsr = true ∧ d.rd ≠ 15 :=
  ⟨_, rfl, by decide, rfl, rfl, by decide⟩

theorem witness_CompareEffect : ∃ d, dpView (.cmnShiftReg .al 1 3 .asr 2) = some d ∧
    isCompare d.op = true ∧ d.operand.restriction d.rn d.rd = none ∧
    conditionPassed d.c State.reset.cpsr = true :=
  ⟨_, rfl, rfl, rfl, rfl⟩

theorem witness_DataProcessingBranch : ∃ d,
    dpView (.movShiftImm .al false 15 0 .lsl 14) = some d ∧ isCompare d.op = false ∧
    d.operand.restriction d.rn d.rd = none ∧ d.rd = 15 ∧ d.sf = false ∧
    (∀ s ∈ [inMode .svc 14 0xFFFFFFFC, inMode .svc 14 0xFFFFFFFE],
      conditionPassed d.c s.cpsr = true) ∧
    (d.result (inMode .svc 14 0xFFFFFFFC)).extractLsb' 0 2 = 0 ∧
    (d.result (inMode .svc 14 0xFFFFFFFE)).extractLsb' 0 2 ≠ 0 :=
  ⟨_, rfl, rfl, rfl, rfl, rfl, by decide +kernel, by decide +kernel, by decide +kernel⟩

/-- A handler's state: svc, its R14 and its SPSR. -/
def inHandler (link : Word) (t : Bool) (m : BitVec 5) : State :=
  { inMode .svc 14 link with
    spsr := State.reset.spsr.set .svc { Spsr.zero with t := t, m := m } }

/-- User and System mode; an illegal mode; a target aligned and misaligned, to ARM and to
Thumb state. -/
theorem witness_ExceptionReturn : ∃ d,
    dpView (.movShiftImm .al true 15 0 .lsl 14) = some d ∧ isCompare d.op = false ∧
    d.operand.restriction d.rn d.rd = none ∧ d.rd = 15 ∧ d.sf = true ∧
    conditionPassed d.c State.reset.cpsr = true ∧
    (inMode .usr 14 0).cpsr.mode = .usr ∧ (inMode .sys 14 0).cpsr.mode = .sys ∧
    (∀ s ∈ [inHandler 0 false 0x14, inHandler 4 false 0x10, inHandler 2 false 0x10,
        inHandler 2 true 0x1F, inHandler 1 true 0x1F], s.cpsr.mode = ExcMode.svc.toMode) ∧
    Mode.ofBits ((inHandler 0 false 0x14).spsr.get .svc).m = none ∧
    Mode.ofBits ((inHandler 4 false 0x10).spsr.get .svc).m = some .usr ∧
    (d.result (inHandler 4 false 0x10)).extractLsb' 0 2 = 0 ∧
    (d.result (inHandler 2 false 0x10)).extractLsb' 0 2 ≠ 0 ∧
    (d.result (inHandler 2 true 0x1F)).getLsbD 0 = false ∧
    (d.result (inHandler 1 true 0x1F)).getLsbD 0 = true :=
  ⟨_, rfl, rfl, rfl, rfl, rfl, rfl, by decide +kernel, by decide +kernel, by decide +kernel,
    by decide +kernel, by decide +kernel, by decide +kernel, by decide +kernel,
    by decide +kernel, by decide +kernel⟩

theorem witness_MultiplyEffect :
    (∀ r ∈ [(0 : Reg), 3, 2, 14], r ≠ 15) ∧ (0 : Reg) ≠ 14 ∧
    conditionPassed .al State.reset.cpsr = true := by
  decide

theorem witness_LongMultiplyEffect :
    (∀ r ∈ [(1 : Reg), 0, 3, 2], r ≠ 15) ∧ (1 : Reg) ≠ 0 ∧ (1 : Reg) ≠ 2 ∧ (0 : Reg) ≠ 2 ∧
    conditionPassed .al State.reset.cpsr = true := by
  decide

theorem witness_MultiplyRestrictions :
    (∀ r ∈ [(1 : Reg), 0, 3, 2], r ≠ 15) ∧
    ¬ ((1 : Reg) = 15 ∨ (0 : Reg) = 15 ∨ (3 : Reg) = 15 ∨ (1 : Reg) = 15) := by
  decide

/-- The lowest and the highest target, and those one word beyond. -/
theorem witness_BranchEffect :
    conditionPassed .al (atPc 0).cpsr = true ∧
    ((atPc 0).pc.toNat : Int) + 8 + 4 * (0xFFFFFE#24).toInt = 0 ∧
    ((atPc 0).pc.toNat : Int) + 8 + 4 * (0xFFFFFD#24).toInt < 0 ∧
    ((atPc 0xFFFFFFF0).pc.toNat : Int) + 8 + 4 * (1#24).toInt = 0xFFFFFFFC ∧
    0xFFFFFFFC < ((atPc 0xFFFFFFF0).pc.toNat : Int) + 8 + 4 * (2#24).toInt := by
  decide +kernel

theorem witness_ExchangeEffect :
    (0 : Reg) ≠ 15 ∧ conditionPassed .al State.reset.cpsr = true ∧
    ((inMode .svc 0 0x8000).readReg 0).extractLsb' 0 2 ≠ 0b10#2 ∧
    ((inMode .svc 0 0x8001).readReg 0).extractLsb' 0 2 ≠ 0b10#2 ∧
    ((inMode .svc 0 0x8003).readReg 0).extractLsb' 0 2 ≠ 0b10#2 ∧
    ((inMode .svc 0 0x8002).readReg 0).extractLsb' 0 2 = 0b10#2 := by
  decide +kernel

theorem witness_BlxLabelEffect :
    ((atPc 0).pc.toNat : Int) + 8 + 4 * (0xFFFFFE#24).toInt + 2 * false.toNat = 0 ∧
    ((atPc 0).pc.toNat : Int) + 8 + 4 * (0xFFFFFD#24).toInt + 2 * true.toNat < 0 ∧
    ((atPc 0xFFFFFFF0).pc.toNat : Int) + 8 + 4 * (1#24).toInt + 2 * true.toNat = 0xFFFFFFFE ∧
    0xFFFFFFFE < ((atPc 0xFFFFFFF0).pc.toNat : Int) + 8 + 4 * (2#24).toInt + 2 * false.toNat := by
  decide +kernel

theorem witness_MrsEffect :
    (0 : Reg) ≠ 15 ∧ conditionPassed .al State.reset.cpsr = true ∧
    State.reset.cpsr.mode = ExcMode.svc.toMode ∧ (inMode .usr 0 0).cpsr.mode = .usr ∧
    (inMode .sys 0 0).cpsr.mode = .sys := by
  decide

/-- A privileged write of the control byte, and a write in User mode. -/
theorem witness_MsrCpsrEffect :
    rotatedImmediate 2 0x0F &&& 0x0FFFFF00 = 0 ∧
    (inMode .svc 0 0x000000DF).readReg 0 &&& 0x0FFFFF00 = 0 ∧
    (inMode .svc 0 0x000000DF).cpsr.mode ≠ .usr ∧ (0b1001#4).getLsbD 0 = true ∧
    ((inMode .svc 0 0x000000DF).readReg 0).getLsbD 5 = false ∧
    (Mode.ofBits (((inMode .svc 0 0x000000DF).readReg 0).extractLsb' 0 5)).isSome = true ∧
    (inMode .usr 0 0xF0000000).cpsr.mode = .usr ∧
    conditionPassed .al (inMode .usr 0 0xF0000000).cpsr = true := by
  decide +kernel

theorem witness_MsrSpsrEffect :
    (0 : Reg) ≠ 15 ∧ (inMode .fiq 0 0xF00000FF).cpsr.mode = ExcMode.fiq.toMode ∧
    rotatedImmediate 0 0xFF &&& 0x0FFFFF00 = 0 ∧
    (inMode .fiq 0 0xF00000FF).readReg 0 &&& 0x0FFFFF00 = 0 := by
  decide +kernel

/-- Reserved bits; no SPSR; T; an illegal mode. -/
theorem witness_MsrChecks :
    (inMode .svc 0 0x08000000).readReg 0 &&& 0x0FFFFF00 ≠ 0 ∧
    (inMode .svc 0 0x00000100).readReg 0 &&& 0x0FFFFF00 ≠ 0 ∧
    (inMode .sys 0 0x10).readReg 0 &&& 0x0FFFFF00 = 0 ∧
    (inMode .svc 0 0x33).readReg 0 &&& 0x0FFFFF00 = 0 ∧
    (inMode .svc 0 0x14).readReg 0 &&& 0x0FFFFF00 = 0 ∧
    (inMode .sys 0 0x10).cpsr.mode = .sys ∧ (inMode .svc 0 0x33).cpsr.mode ≠ .usr ∧
    ((inMode .svc 0 0x33).readReg 0).getLsbD 5 = true ∧
    ((inMode .svc 0 0x14).readReg 0).getLsbD 5 = false ∧
    Mode.ofBits (((inMode .svc 0 0x14).readReg 0).extractLsb' 0 5) = none ∧
    rotatedImmediate 12 0xFF &&& 0x0FFFFF00 ≠ 0 ∧ rotatedImmediate 0 0x33 &&& 0x0FFFFF00 = 0 ∧
    (rotatedImmediate 0 0x33).getLsbD 5 = true ∧ (rotatedImmediate 0 0x14).getLsbD 5 = false ∧
    Mode.ofBits ((rotatedImmediate 0 0x14).extractLsb' 0 5) = none := by
  decide +kernel

/-- Every byte of an access, by evaluation. -/
theorem admits_all {l : List Word} {p : Platform} {k : AccessKind} (h : l.all (p.admits k) = true) :
    ∀ b ∈ l, p.admits k b = true := List.all_eq_true.mp h

theorem admits_none {l : List Word} {p : Platform} {k : AccessKind}
    (h : l.all (fun b => !p.admits k b) = true) : ∀ b ∈ l, p.admits k b = false :=
  fun b hb => by simpa using List.all_eq_true.mp h b hb

theorem admitted_of {x : TransferView} {s : State} (hal : x.width.aligned (x.address s) = true)
    (hab : s.platform.abortsAt x.kind (x.address s) = false)
    (htext : (x.width.addresses (x.address s)).all (fun b => !s.platform.admits .fetch b) = true)
    (hall : (x.width.addresses (x.address s)).all (s.platform.admits x.kind) = true) :
    x.Admitted s :=
  ⟨hal, hab, fun _ => admits_none htext, admits_all hall⟩

/-- The last word of memory. -/
theorem witness_LoadEffect : ∃ x, transferView (.ldrImmPre .al true true 1 0 4) = some x ∧
    x.load = true ∧ x.width ≠ .half ∧ x.signed = false ∧ x.Runs (inMode .svc 1 0xFFFFFFF8) ∧
    x.rd ≠ 15 ∧ x.Admitted (inMode .svc 1 0xFFFFFFF8) ∧ (inMode .svc 1 0xFFFFFFF8).HasNext :=
  ⟨_, rfl, rfl, by decide, rfl, ⟨by decide +kernel, by decide +kernel⟩, by decide,
    admitted_of (by decide +kernel) (by decide +kernel) (by decide +kernel) (by decide +kernel),
    reset_hasNext⟩

theorem witness_HalfwordLoadEffect : ∃ x, transferView (.ldrshRegPost .al false 1 0 2) = some x ∧
    x.load = true ∧ (x.width = .half ∨ x.signed = true) ∧ x.Runs (inMode .svc 1 0xFFFFFFFE) ∧
    x.Admitted (inMode .svc 1 0xFFFFFFFE) ∧ (inMode .svc 1 0xFFFFFFFE).HasNext :=
  ⟨_, rfl, rfl, .inl rfl, ⟨by decide +kernel, by decide +kernel⟩,
    admitted_of (by decide +kernel) (by decide +kernel) (by decide +kernel) (by decide +kernel),
    reset_hasNext⟩

theorem witness_StoreEffect : ∃ x, transferView (.strRegPost .al true 1 0 2 .lsl 2) = some x ∧
    x.load = false ∧ x.Runs (inMode .svc 1 0xFFFFFFFC) ∧ x.Admitted (inMode .svc 1 0xFFFFFFFC) ∧
    (inMode .svc 1 0xFFFFFFFC).HasNext ∧ Memory.wf (inMode .svc 1 0xFFFFFFFC).mem = true :=
  ⟨_, rfl, rfl, ⟨by decide +kernel, by decide +kernel⟩,
    admitted_of (by decide +kernel) (by decide +kernel) (by decide +kernel) (by decide +kernel),
    reset_hasNext, by decide +kernel⟩

/-- The state of a load to R15. -/
def loading (v : Word) : State := (inMode .svc 1 0x1000).writeWord 0x1000 v

/-- A word refused, one to ARM state and two to Thumb state. -/
theorem witness_LoadToPc : ∃ x, transferView (.ldrImmPre .al true false 1 15 0) = some x ∧
    x.load = true ∧ x.rd = 15 ∧ (x.Runs (loading 2) ∧ x.Admitted (loading 2)) ∧
    (x.Runs (loading 3) ∧ x.Admitted (loading 3)) ∧
    loaded .word false (x.address (loading 2)) (loading 2) = 2 ∧
    loaded .word false (x.address (loading 4)) (loading 4) = 4 ∧
    loaded .word false (x.address (loading 1)) (loading 1) = 1 ∧
    loaded .word false (x.address (loading 3)) (loading 3) = 3 :=
  ⟨_, rfl, rfl, rfl,
    ⟨⟨rfl, rfl⟩, admitted_of (by decide +kernel) (by decide +kernel) (by decide +kernel)
      (by decide +kernel)⟩,
    ⟨⟨rfl, rfl⟩, admitted_of (by decide +kernel) (by decide +kernel) (by decide +kernel)
      (by decide +kernel)⟩,
    by decide +kernel, by decide +kernel, by decide +kernel, by decide +kernel⟩

/-- Where every data access aborts; R1 is 2. -/
def aborting : State :=
  (onPlatform { Platform.default with aborts := [everywhere false true true] }).setReg .r1 2

/-- Where misaligned accesses abort. -/
def aligning : State := onPlatform { Platform.default with misaligned := .abort }

/-- Where every data access aborts and every address is program text; R1 is 2. -/
def abortingText : State :=
  { aborting with
    platform := { aborting.platform with memMap := [everywhere true true true] } }

/-- An abort claimed by the oracle, for a store into program text too; an alignment abort. -/
theorem witness_TransferAbort : ∃ x, transferView (.strImmPre .al true true 1 0 2) = some x ∧
    (x.Runs aborting ∧ x.width.aligned (x.address aborting) = true ∧
      aborting.platform.abortsAt x.kind (x.address aborting) = true) ∧
    (x.Runs abortingText ∧ x.width.aligned (x.address abortingText) = true ∧
      abortingText.platform.abortsAt x.kind (x.address abortingText) = true ∧
      ∃ b ∈ x.width.addresses (x.address abortingText),
        abortingText.platform.admits .fetch b = true) ∧
    (x.Runs aligning ∧ x.width.aligned (x.address aligning) = false ∧
      aligning.platform.misaligned = .abort) :=
  ⟨_, rfl, ⟨⟨rfl, rfl⟩, by decide +kernel, by decide +kernel⟩,
    ⟨⟨rfl, rfl⟩, by decide +kernel, by decide +kernel, 4, by decide +kernel, by decide +kernel⟩,
    ⟨⟨rfl, rfl⟩, by decide +kernel, rfl⟩⟩

/-- Every address is program text. -/
def allText : State := onPlatform { Platform.default with memMap := [everywhere true true true] }

/-- No address admits a read. -/
def unreadable : State :=
  onPlatform { Platform.default with memMap := [everywhere true false true] }

/-- Misaligned; a store into program text; a load outside the map. -/
theorem witness_TransferStops :
    (∃ x, transferView (.strhImmPre .al true false 1 0 0 1) = some x ∧ x.Runs State.reset ∧
      x.width.aligned (x.address State.reset) = false ∧
      State.reset.platform.misaligned = .refuse) ∧
    (∃ x, transferView (.strbImmPre .al true false 1 0 3) = some x ∧ x.load = false ∧
      x.Runs allText ∧ x.width.aligned (x.address allText) = true ∧
      allText.platform.abortsAt x.kind (x.address allText) = false ∧
      ∃ b ∈ x.width.addresses (x.address allText), allText.platform.admits .fetch b = true) ∧
    (∃ x, transferView (.ldrbImmPre .al true false 1 0 3) = some x ∧ x.load = true ∧
      x.Runs unreadable ∧ x.width.aligned (x.address unreadable) = true ∧
      unreadable.platform.abortsAt x.kind (x.address unreadable) = false ∧
      ∃ b ∈ x.width.addresses (x.address unreadable),
        unreadable.platform.admits x.kind b = false) :=
  ⟨⟨_, rfl, ⟨rfl, rfl⟩, by decide +kernel, rfl⟩,
    ⟨_, rfl, rfl, ⟨rfl, rfl⟩, by decide +kernel, by decide +kernel, 3, by decide +kernel,
        by decide +kernel⟩,
    ⟨_, rfl, rfl, ⟨rfl, rfl⟩, by decide +kernel, by decide +kernel, 3, by decide +kernel,
      by decide +kernel⟩⟩

/-- Where misaligned words are rotated; R1 is 0. -/
def rotating : State := onPlatform { Platform.default with misaligned := .rotateOrIgnore }

/-- The first and the last misaligned address of a word, loaded and stored; to R15; a
halfword. -/
theorem witness_MisalignedRotate :
    rotating.platform.misaligned = .rotateOrIgnore ∧ rotating.HasNext ∧
    Memory.wf rotating.mem = true ∧
    (∃ x, transferView (.ldrImmPre .al true true 1 0 1) = some x ∧ x.Runs rotating ∧
      x.width.aligned (x.address rotating) = false ∧ x.width = .word ∧ x.rd ≠ 15 ∧
      x.load = true ∧
      rotating.platform.abortsAt x.kind (x.address rotating &&& 0xFFFFFFFC) = false ∧
      ∀ b ∈ Width.word.addresses (x.address rotating &&& 0xFFFFFFFC),
        rotating.platform.admits x.kind b = true) ∧
    (∃ x, transferView (.strImmPre .al true true 1 0 3) = some x ∧ x.Runs rotating ∧
      x.width.aligned (x.address rotating) = false ∧ x.width = .word ∧ x.rd ≠ 15 ∧
      x.load = false ∧
      rotating.platform.abortsAt x.kind (x.address rotating &&& 0xFFFFFFFC) = false ∧
      (∀ b ∈ Width.word.addresses (x.address rotating &&& 0xFFFFFFFC),
        rotating.platform.admits x.kind b = true) ∧
      ∀ b ∈ Width.word.addresses (x.address rotating &&& 0xFFFFFFFC),
        rotating.platform.admits .fetch b = false) ∧
    (∃ x, transferView (.ldrImmPre .al true false 1 15 2) = some x ∧ x.Runs rotating ∧
      x.width.aligned (x.address rotating) = false ∧ x.rd = 15) ∧
    (∃ x, transferView (.ldrhImmPre .al true false 1 0 0 1) = some x ∧ x.Runs rotating ∧
      x.width.aligned (x.address rotating) = false ∧ x.width ≠ .word) :=
  ⟨rfl, reset_hasNext, rfl,
    ⟨_, rfl, ⟨rfl, rfl⟩, by decide +kernel, rfl, by decide, rfl, by decide +kernel,
      admits_all (by decide +kernel)⟩,
    ⟨_, rfl, ⟨rfl, rfl⟩, by decide +kernel, rfl, by decide, rfl, by decide +kernel,
      admits_all (by decide +kernel), admits_none (by decide +kernel)⟩,
    ⟨_, rfl, ⟨rfl, rfl⟩, by decide +kernel, rfl⟩,
    ⟨_, rfl, ⟨rfl, rfl⟩, by decide +kernel, by decide⟩⟩

/-- Where misaligned words are rotated, on a platform that differs; R1 is 0. -/
def rotatingOn (p : Platform) : State := onPlatform { p with misaligned := .rotateOrIgnore }

/-- The aligned word aborts; it overlaps program text; it is outside the map. -/
theorem witness_MisalignedRotate_stops :
    (∃ x, transferView (.strImmPre .al true true 1 0 3) = some x ∧
      x.Runs (rotatingOn aborting.platform) ∧
      x.width.aligned (x.address (rotatingOn aborting.platform)) = false ∧ x.width = .word ∧
      x.rd ≠ 15 ∧ (rotatingOn aborting.platform).platform.abortsAt x.kind
        (x.address (rotatingOn aborting.platform) &&& 0xFFFFFFFC) = true) ∧
    (∃ x, transferView (.strImmPre .al true true 1 0 3) = some x ∧ x.load = false ∧
      x.Runs (rotatingOn allText.platform) ∧
      x.width.aligned (x.address (rotatingOn allText.platform)) = false ∧ x.width = .word ∧
      x.rd ≠ 15 ∧ (rotatingOn allText.platform).platform.abortsAt x.kind
        (x.address (rotatingOn allText.platform) &&& 0xFFFFFFFC) = false ∧
      ∃ b ∈ Width.word.addresses (x.address (rotatingOn allText.platform) &&& 0xFFFFFFFC),
        (rotatingOn allText.platform).platform.admits .fetch b = true) ∧
    (∃ x, transferView (.ldrImmPre .al true true 1 0 1) = some x ∧ x.load = true ∧
      x.Runs (rotatingOn unreadable.platform) ∧
      x.width.aligned (x.address (rotatingOn unreadable.platform)) = false ∧ x.width = .word ∧
      x.rd ≠ 15 ∧ (rotatingOn unreadable.platform).platform.abortsAt x.kind
        (x.address (rotatingOn unreadable.platform) &&& 0xFFFFFFFC) = false ∧
      ∃ b ∈ Width.word.addresses (x.address (rotatingOn unreadable.platform) &&& 0xFFFFFFFC),
        (rotatingOn unreadable.platform).platform.admits x.kind b = false) :=
  ⟨⟨_, rfl, ⟨rfl, rfl⟩, by decide +kernel, rfl, by decide, by decide +kernel⟩,
    ⟨_, rfl, rfl, ⟨rfl, rfl⟩, by decide +kernel, rfl, by decide, by decide +kernel, 0,
      by decide +kernel, by decide +kernel⟩,
    ⟨_, rfl, rfl, ⟨rfl, rfl⟩, by decide +kernel, rfl, by decide, by decide +kernel, 0,
      by decide +kernel, by decide +kernel⟩⟩

theorem witness_MixedWidths : Memory.wf State.reset.mem = true := by decide

theorem witness_UndefinedEffect : conditionPassed .al State.reset.cpsr = true := by decide

theorem witness_HandlerReturn :
    State.reset.cpsr.t = false ∧ (atPc 0xFFFFFFFC).pc.extractLsb' 0 2 = 0 := by decide

/-- Both lines asserted, I clear, F as given. -/
def interrupted (f : Bool) : State :=
  { onPlatform { Platform.default with irqAt := [0], fiqAt := [0] } with
    cpsr := { Cpsr.reset with i := false, f := f } }

/-- FIQ; IRQ with FIQ asserted but masked. -/
theorem witness_InterruptSampling :
    (interrupted false).platform.haltAddr ≠ some (interrupted false).pc ∧
    (interrupted false).boundary ∈ (interrupted false).platform.fiqAt ∧
    (interrupted false).cpsr.f = false ∧
    (interrupted true).platform.haltAddr ≠ some (interrupted true).pc ∧
    (interrupted true).cpsr.f = true ∧
    (interrupted true).boundary ∈ (interrupted true).platform.irqAt ∧
    (interrupted true).cpsr.i = false := by
  decide +kernel

/-- A state whose next step runs `MOVS R0, R2`. -/
def running : State := start .svc 0 true 0xE1B00002 []

theorem running_runs : running.RunsInstruction :=
  ⟨by decide +kernel, ⟨.inr (by decide +kernel), .inr (by decide +kernel)⟩, by decide +kernel⟩

theorem witness_StepRunsDecoded :
    running.RunsInstruction ∧ running.platform.abortsAt .fetch running.pc = false ∧
    (∀ b ∈ Width.word.addresses running.pc, running.platform.admits .fetch b = true) ∧
    decode (running.readByte (running.pc + 3) ++ running.readByte (running.pc + 2) ++
      running.readByte (running.pc + 1) ++ running.readByte running.pc) =
      .ok (.movShiftImm .al true 0 0 .lsl 2) ∧
    ∃ t, exec (.movShiftImm .al true 0 0 .lsl 2) running = .next t ∧ true = true :=
  ⟨running_runs, by decide +kernel, admits_all (by decide +kernel), by decide +kernel,
    next_of_nextWith (p := fun _ => true) (by decide +kernel)⟩

/-- Where every fetch aborts. -/
def fetchAborting : State :=
  onPlatform { Platform.default with aborts := [everywhere true false false] }

/-- Thumb state. -/
def inThumb : State := { State.reset with cpsr := { Cpsr.reset with t := true } }

/-- The end of the run; an aborted fetch; a fetch outside the map; Thumb state. -/
theorem witness_StepWithoutInstruction :
    (onPlatform { Platform.default with haltAddr := some 0 }).platform.haltAddr = some 0 ∧
    (fetchAborting.RunsInstruction ∧
      fetchAborting.platform.abortsAt .fetch fetchAborting.pc = true) ∧
    (State.reset.RunsInstruction ∧ State.reset.platform.abortsAt .fetch State.reset.pc = false ∧
      ∃ b ∈ Width.word.addresses State.reset.pc, State.reset.platform.admits .fetch b = false) ∧
    inThumb.platform.haltAddr ≠ some inThumb.pc ∧ inThumb.NoInterrupt ∧ inThumb.cpsr.t = true :=
  ⟨rfl, ⟨⟨by decide +kernel, ⟨.inr rfl, .inr rfl⟩, rfl⟩, by decide +kernel⟩,
    ⟨⟨by decide +kernel, ⟨.inr rfl, .inr rfl⟩, rfl⟩, by decide +kernel, 0, by decide +kernel,
        by decide +kernel⟩,
    by decide +kernel, ⟨.inr rfl, .inr rfl⟩, rfl⟩

/-- A word of no row, and one with condition field 1111, fetched. -/
theorem witness_StepWithoutInstruction_refused :
    ∀ w ∈ [(0xEF000000, DecodeError.notInScope), (0xF57FF000, .cond1111)],
      (start .svc 0 true w.1 []).RunsInstruction ∧
      (start .svc 0 true w.1 []).platform.abortsAt .fetch (start .svc 0 true w.1 []).pc = false ∧
      (Width.word.addresses (start .svc 0 true w.1 []).pc).all
        ((start .svc 0 true w.1 []).platform.admits .fetch) = true ∧
      decode ((start .svc 0 true w.1 []).readWord (start .svc 0 true w.1 []).pc) =
        .error w.2 := by
  intro w hw
  simp only [List.mem_cons, List.not_mem_nil, or_false] at hw
  rcases hw with rfl | rfl
  · exact ⟨⟨by decide +kernel, ⟨.inr (by decide +kernel), .inr (by decide +kernel)⟩,
      by decide +kernel⟩, by decide +kernel, by decide +kernel, by decide +kernel⟩
  · exact ⟨⟨by decide +kernel, ⟨.inr (by decide +kernel), .inr (by decide +kernel)⟩,
      by decide +kernel⟩, by decide +kernel, by decide +kernel, by decide +kernel⟩

/-- The last word of memory. -/
theorem witness_PlacedWordRuns :
    (atPc 0xFFFFFFFC).RunsInstruction ∧ Memory.wf (atPc 0xFFFFFFFC).mem = true ∧
    (atPc 0xFFFFFFFC).platform.abortsAt .fetch (atPc 0xFFFFFFFC).pc = false ∧
    (atPc 0xFFFFFFFC).pc.toNat + 4 ≤ 2 ^ 32 ∧
    decode 0xE10F0000#32 = .ok (.mrs .al .cpsr 0) :=
  ⟨⟨by decide +kernel, ⟨.inr rfl, .inr rfl⟩, rfl⟩, by decide, by decide +kernel,
    by decide +kernel, by decide +kernel⟩

theorem witness_StepKeepsInvariant : running.Inv ∧ ∃ t, step running = .next t ∧ true = true :=
  ⟨⟨by decide +kernel, by decide +kernel⟩,
    next_of_nextWith (p := fun _ => true) (by decide +kernel)⟩

theorem witness_ProgramTextFixed :
    Memory.wf running.mem = true ∧ running.platform.admits .fetch 0x8000 = true ∧
    ∃ t, step running = .next t ∧ true = true :=
  ⟨by decide +kernel, by decide +kernel,
    next_of_nextWith (p := fun _ => true) (by decide +kernel)⟩

theorem witness_UserModeLeftByException :
    (start .usr 0 false 0xE7F000F0 []).cpsr.mode = .usr ∧
    ∃ t, step (start .usr 0 false 0xE7F000F0 []) = .next t ∧ decide (t.cpsr.mode ≠ .usr) = true :=
  ⟨by decide +kernel, next_of_nextWith (p := fun t => decide (t.cpsr.mode ≠ .usr))
    (by decide +kernel)⟩

theorem witness_UserModeKeepsMasks :
    (start .usr 0 false 0xE129F000 [(.r0, 0xF00000D3)]).cpsr.mode = .usr ∧
    ∃ t, step (start .usr 0 false 0xE129F000 [(.r0, 0xF00000D3)]) = .next t ∧
      decide (t.cpsr.mode = .usr) = true :=
  ⟨by decide +kernel, next_of_nextWith (p := fun t => decide (t.cpsr.mode = .usr))
    (by decide +kernel)⟩

/-- Entering und from User mode: R14_und is the one register of another bank written. -/
theorem witness_OtherBanksKept :
    (∀ i, visible (start .usr 0 false 0xE7F000F0 []).cpsr.mode i ≠ some .r14_svc) ∧
    ∃ t, step (start .usr 0 false 0xE7F000F0 []) = .next t ∧
      decide (PhysReg.r14_svc ≠ linkReg t.cpsr.mode) = true :=
  ⟨by decide +kernel,
      next_of_nextWith (p := fun t => decide (PhysReg.r14_svc ≠ linkReg t.cpsr.mode))
    (by decide +kernel)⟩

/-- An SPSR changed by an exception, and by an MSR in its own mode. -/
theorem witness_SpsrsKept :
    (∃ t, step (start .usr 0b1000#4 false 0xE7F000F0 []) = .next t ∧
      decide (t.spsr.get .und ≠ (start .usr 0b1000#4 false 0xE7F000F0 []).spsr.get .und) = true) ∧
    ∃ t, step (start .svc 0 false 0xE169F000 [(.r0, 0x60000030)]) = .next t ∧
      decide (t.spsr.get .svc ≠
        (start .svc 0 false 0xE169F000 [(.r0, 0x60000030)]).spsr.get .svc) = true :=
  ⟨next_of_nextWith (p := fun t => decide (t.spsr.get .und ≠
      (start .usr 0b1000#4 false 0xE7F000F0 []).spsr.get .und)) (by decide +kernel),
    next_of_nextWith (p := fun t => decide (t.spsr.get .svc ≠
      (start .svc 0 false 0xE169F000 [(.r0, 0x60000030)]).spsr.get .svc)) (by decide +kernel)⟩

end Sys2Proof.Tests
end

section
/-!
PROOFS. General registers by number: O9 (10_state.md, rules R10, R28, R39).
-/

namespace Sys2Proof.Machine

/-- Read after write, by number; a write of R15 is a control transfer and stands apart. -/
theorem State.readReg_writeReg (s : State) {i : Reg} (j : Reg) (v : Word) (hi : i ≠ 15) :
    (s.writeReg i v).readReg j = if j = i then v else s.readReg j := by
  cases hj : visible s.cpsr.mode j with
  | none =>
    obtain rfl : j = 15 := visible_eq_none.mp hj
    rw [if_neg hi.symm, State.readReg_fifteen, State.readReg_fifteen, State.writeReg_pc s v hi]
  | some p =>
    have hread : (s.writeReg i v).readReg j = (s.writeReg i v).reg p :=
      State.readReg_of_visible (by rwa [State.writeReg_cpsr])
    have hsame : visible s.cpsr.mode i = some p ↔ j = i :=
      ⟨fun h => (visible_inj hi (h.trans hj.symm)).symm, fun h => h ▸ hj⟩
    simp only [hread, State.reg_writeReg, hsame, State.readReg_of_visible hj]

/-- Settles O9: read after write, the frame over every bank, and the reading of R15. -/
theorem registerReadWrite : Obligations.RegisterReadWrite := fun s i j v hi =>
  ⟨State.readReg_writeReg s j v hi,
    fun p hp => by rw [State.reg_writeReg, if_neg hp],
    State.readReg_fifteen s⟩

end Sys2Proof.Machine
end

section
/-!
PROOFS. The shifter by an amount of 1 to 31, as arithmetic (rule R9), and the codes of an
amount in the word: O17 (42_operand2_shifter.md, rules R173 to R178).
-/

namespace Sys2Proof.Machine

/-! ## Amounts from 1 to 31 -/

theorem shiftLsl_zero (v : Word) (c : Bool) : shiftLsl v 0 c = ⟨v, c⟩ := rfl

/-- LSL multiplies modulo 2^32; the last bit out is bit 32 - n (rule R174). -/
theorem shiftLsl_inRange (v : Word) {n : Nat} (c : Bool) (h0 : n ≠ 0) (h31 : n ≤ 31) :
    (shiftLsl v n c).value.toNat = v.toNat * 2 ^ n % 2 ^ 32 ∧
    (shiftLsl v n c).carry = v.getLsbD (32 - n) := by
  simp [shiftLsl, h0, h31, Nat.shiftLeft_eq]

/-- LSR divides the unsigned value; the last bit out is bit n - 1 (rule R175). -/
theorem shiftLsr_inRange (v : Word) {n : Nat} (c : Bool) (h0 : n ≠ 0) (h31 : n ≤ 31) :
    (shiftLsr v n c).value.toNat = v.toNat / 2 ^ n ∧
    (shiftLsr v n c).carry = v.getLsbD (n - 1) := by
  simp [shiftLsr, h0, h31, Nat.shiftRight_eq_div_pow]

/-- ASR divides the signed value, rounding down; the last bit out is bit n - 1 (rule R176). -/
theorem shiftAsr_inRange (v : Word) {n : Nat} (c : Bool) (h0 : n ≠ 0) (h31 : n ≤ 31) :
    (shiftAsr v n c).value.toInt = v.toInt / 2 ^ n ∧
    (shiftAsr v n c).carry = v.getLsbD (n - 1) := by
  simp [shiftAsr, h0, h31, BitVec.toInt_sshiftRight, Int.shiftRight_eq_div_pow]

/-- ROR brings the bits that leave in at the top; the last of them is bit n - 1 (rule R177). -/
theorem shiftRor_inRange (v : Word) {n : Nat} (c : Bool) (h0 : n ≠ 0) (h31 : n ≤ 31) :
    (shiftRor v n c).value = ((v >>> n) ||| (v <<< (32 - n))) ∧
    (shiftRor v n c).carry = v.getLsbD (n - 1) := by
  have hm : (n - 1) % 32 + 1 = n := by omega
  have h32 : n ≠ 32 := by omega
  have hmod : n % 32 = n := Nat.mod_eq_of_lt (by omega)
  simp only [shiftRor, if_neg h0, hm, if_neg h32, BitVec.rotateRight_def, hmod, and_self]

/-! ## The code 0 -/

/-- RRX: C enters bit 31, every other bit moves down by one (rule R178). -/
theorem shiftRrx_value_getLsbD (v : Word) (c : Bool) (j : Nat) :
    (shiftRrx v c).value.getLsbD j = if j = 31 then c else v.getLsbD (j + 1) := by
  rw [shiftRrx, BitVec.getLsbD_append]
  rcases Nat.lt_trichotomy j 31 with hlt | rfl | hgt
  · simp [hlt, hlt.ne, Nat.add_comm]
  · simp
  · have hv : v.getLsbD (j + 1) = false := BitVec.getLsbD_of_ge _ _ (by omega)
    have hc : (BitVec.ofBool c).getLsbD (j - 31) = false := BitVec.getLsbD_of_ge _ _ (by omega)
    rw [if_neg (by omega), hc, if_neg (by omega), hv]

/-- A code other than 0 is the amount itself, whatever the shift type. -/
theorem shiftByImmediate_of_ne_zero (v : Word) (sh : ShiftType) {k : BitVec 5} (c : Bool)
    (hk : k ≠ 0) : shiftByImmediate v sh k c = shiftByRegister v sh k.toNat c := by
  cases sh <;> simp only [shiftByImmediate, shiftByRegister, if_neg hk]

/-- Settles O17, each shift type by its lemma for the codes 1 to 31 and the code 0 by what it
stands for. -/
theorem shiftByValue : Obligations.ShiftByValue := by
  intro v k c
  refine ⟨shiftLsl_zero v c, fun hk => ?_, rfl, rfl, shiftRrx_value_getLsbD v c, rfl⟩
  have h0 : k.toNat ≠ 0 := fun h => hk (BitVec.eq_of_toNat_eq h)
  have h31 : k.toNat ≤ 31 := Nat.le_of_lt_succ k.isLt
  obtain ⟨lslValue, lslCarry⟩ := shiftLsl_inRange v c h0 h31
  obtain ⟨lsrValue, lsrCarry⟩ := shiftLsr_inRange v c h0 h31
  obtain ⟨asrValue, asrCarry⟩ := shiftAsr_inRange v c h0 h31
  obtain ⟨rorValue, rorCarry⟩ := shiftRor_inRange v c h0 h31
  simp only [shiftByImmediate_of_ne_zero v _ c hk]
  exact ⟨lslValue, lslCarry, lsrValue, lsrCarry, asrValue, asrCarry, rorValue, rorCarry⟩

end Sys2Proof.Machine
end

section
/-!
PROOFS. The step at a boundary where an instruction is fetched, and the word the host
places there: O51, O53 (00_scope.md rule R16, 20_memory.md rules R64, R72; log 6).
-/

namespace Sys2Proof.Machine

/-! ## The step -/

/-- No interrupt is pending where each is unasserted or masked. -/
theorem pendingInterrupt_eq_none {s : State} (h : s.NoInterrupt) : pendingInterrupt s = none := by
  obtain ⟨hfiq, hirq⟩ := h
  have hf : ¬ (s.fiqAsserted = true ∧ s.cpsr.f = false) := by
    rcases hfiq with h | h <;> simp [State.fiqAsserted, h]
  have hi : ¬ (s.irqAsserted = true ∧ s.cpsr.i = false) := by
    rcases hirq with h | h <;> simp [State.irqAsserted, h]
  rw [pendingInterrupt, if_neg hf, if_neg hi]

/-- Where the step fetches, it is the fetched instruction at the next boundary. -/
theorem step_of_runsInstruction {s : State} (h : s.RunsInstruction) :
    step s = nextBoundary (executeNext s) := by
  obtain ⟨hhalt, hint, -⟩ := h
  simp only [step, cycle, if_neg hhalt, pendingInterrupt_eq_none hint]

/-- A fetch that neither aborts nor leaves the map is the word at the pc. -/
theorem fetch_word {s : State} (habort : s.platform.abortsAt .fetch s.pc = false)
    (hmap : ∀ b ∈ Width.word.addresses s.pc, s.platform.admits .fetch b = true) :
    fetch s = .word (s.readWord s.pc) := by
  rw [fetch, if_neg (by simp [habort]), if_pos (List.all_eq_true.mpr hmap)]

/-- The step runs what the word at the pc decodes to (rules R16, R72). -/
theorem step_of_decode {s : State} {i : Instr} (h : s.RunsInstruction)
    (habort : s.platform.abortsAt .fetch s.pc = false)
    (hmap : ∀ b ∈ Width.word.addresses s.pc, s.platform.admits .fetch b = true)
    (hdecode : decode (s.readWord s.pc) = .ok i) : step s = nextBoundary (exec i s) := by
  have ⟨_, _, harm⟩ := h
  rw [step_of_runsInstruction h, executeNext, if_neg (by simp [harm]), fetch_word habort hmap]
  simp only [executeWord, hdecode]

/-- Settles O51: the three outcomes of exec at the next boundary. -/
theorem stepRunsDecoded : Obligations.StepRunsDecoded := by
  intro s i hruns habort hmap hdecode
  have hstep : step s = nextBoundary (exec i s) := step_of_decode hruns habort hmap hdecode
  refine ⟨fun t h => ?_, fun f h => ?_, fun r h => ?_⟩ <;> rw [hstep, h] <;> rfl

/-! ## Bytes and words placed in memory -/

/-- Bytes written change memory and nothing else. -/
theorem State.writeBytes_eq_with_mem (s : State) (a : Word) (bs : List Byte) :
    s.writeBytes a bs = { s with mem := (s.writeBytes a bs).mem } := by
  induction bs generalizing s a with
  | nil => rfl
  | cons b rest ih => exact ih (s.writeByte a b) (a + 1)

/-- The bytes of a word, written one after another, are a write of the word (rule R64). -/
theorem State.writeBytes_bytesOfWord (s : State) (a w : Word) :
    s.writeBytes a (bytesOfWord w) = s.writeWord a w := by
  have h2 : a + 1 + 1 = a + 2 := BitVec.add_assoc a 1 1
  have h3 : a + 2 + 1 = a + 3 := BitVec.add_assoc a 2 1
  simp only [bytesOfWord, State.writeBytes, h2, h3]
  rfl

/-- A word is its four bytes, the lowest at the lowest address (rule R64). -/
theorem append_bytes_eq (w : Word) :
    w.extractLsb' 24 8 ++ w.extractLsb' 16 8 ++ w.extractLsb' 8 8 ++ w.extractLsb' 0 8 = w := by
  rw [BitVec.extractLsb'_append_extractLsb'_eq_extractLsb' (by rfl),
    BitVec.extractLsb'_append_extractLsb'_eq_extractLsb' (by rfl),
    BitVec.extractLsb'_append_extractLsb'_eq_extractLsb' (by rfl), BitVec.extractLsb'_eq_self]

/-- A word written is the word read back, at any address, aligned or not. -/
theorem State.readWord_writeWord {s : State} (h : Memory.wf s.mem = true) (a w : Word) :
    (s.writeWord a w).readWord a = w := by
  simp [State.readWord, State.readByte_writeWord h, append_bytes_eq]

/-! ## A program loaded -/

/-- A load changes memory and the memory map and nothing else. -/
theorem State.loadProgram_eq_with (s : State) (base : Word) (ws : List Word) :
    ∃ mem memMap, s.loadProgram base ws =
      { s with mem := mem, platform := { s.platform with memMap := memMap } } := by
  rw [State.loadProgram, State.writeBytes_eq_with_mem]
  exact ⟨_, _, rfl⟩

/-- A load admits its own addresses for fetch. -/
theorem State.loadProgram_admits_fetch (s : State) (base : Word) (ws : List Word) {a : Word}
    (hlo : base.toNat ≤ a.toNat) (hhi : a.toNat < base.toNat + 4 * ws.length) :
    (s.loadProgram base ws).platform.admits .fetch a = true := by
  simp [State.loadProgram, Platform.admits, Region.hasKind, Region.contains, hlo, hhi]

/-- A program of one word is the word read at its base. -/
theorem State.readWord_loadProgram_singleton {s : State} (h : Memory.wf s.mem = true)
    (base w : Word) : (s.loadProgram base [w]).readWord base = w := by
  calc (s.loadProgram base [w]).readWord base
      = (s.writeBytes base (bytesOfWord w)).readWord base := rfl
    _ = (s.writeWord base w).readWord base := by rw [State.writeBytes_bytesOfWord]
    _ = w := State.readWord_writeWord h base w

/-- Below the top of memory the four addresses of a word do not wrap. -/
theorem Width.word_addresses_bounds {a b : Word} (htop : a.toNat + 4 ≤ 2 ^ 32)
    (hb : b ∈ Width.word.addresses a) : a.toNat ≤ b.toNat ∧ b.toNat < a.toNat + 4 := by
  simp only [Width.addresses, List.mem_cons, List.not_mem_nil, or_false] at hb
  rcases hb with rfl | rfl | rfl | rfl <;> bv_omega

/-- The host's placement of a 32-bit word is the load of that one word at the pc. -/
theorem State.withFetchWord_eq_loadProgram (s : State) (w : Word) :
    s.withFetchWord 32 w.toNat = s.loadProgram s.pc [w] := by
  rw [State.withFetchWord, State.placeWord, Nat.mod_eq_of_lt w.isLt, BitVec.ofNat_toNat,
    BitVec.setWidth_eq]

/-- Settles O53: the load keeps all that the fetch asks about but the map, which admits the
word's four addresses; the word read there is the one placed. -/
theorem placedWordRuns : Obligations.PlacedWordRuns := by
  intro s w i hruns hwf habort htop hdecode
  rw [State.withFetchWord_eq_loadProgram]
  have hmap : ∀ b ∈ Width.word.addresses s.pc,
      (s.loadProgram s.pc [w]).platform.admits .fetch b = true := fun b hb =>
    have ⟨hlo, hhi⟩ := Width.word_addresses_bounds htop hb
    s.loadProgram_admits_fetch s.pc [w] hlo hhi
  have hword : decode ((s.loadProgram s.pc [w]).readWord s.pc) = .ok i := by
    rwa [State.readWord_loadProgram_singleton hwf]
  obtain ⟨mem, memMap, heq⟩ := s.loadProgram_eq_with s.pc [w]
  rw [heq] at hmap hword ⊢
  exact step_of_decode hruns habort hmap hword

end Sys2Proof.Machine
end

section
/-!
PROOFS. The instructions by their shape, and what every conditional instruction does before
its own meaning: it is `guarded` by its restriction and its condition: O13
(41_conditional_execution.md, rules R152, R153).
-/

namespace Sys2Proof.Machine

/-! ## A case split by shape -/

/-- Every instruction is a data-processing instruction, a single data transfer, or one of the
fifteen others. -/
theorem byShape {motive : Instr → Prop}
    (dp : ∀ i d, dpView i = some d → motive i)
    (transfer : ∀ i x, transferView i = some x → motive i)
    (mul : ∀ c sf rd rs rm, motive (.mul c sf rd rs rm))
    (mla : ∀ c sf rd rn rs rm, motive (.mla c sf rd rn rs rm))
    (umull : ∀ c sf rdHi rdLo rs rm, motive (.umull c sf rdHi rdLo rs rm))
    (umlal : ∀ c sf rdHi rdLo rs rm, motive (.umlal c sf rdHi rdLo rs rm))
    (smull : ∀ c sf rdHi rdLo rs rm, motive (.smull c sf rdHi rdLo rs rm))
    (smlal : ∀ c sf rdHi rdLo rs rm, motive (.smlal c sf rdHi rdLo rs rm))
    (b : ∀ c imm24, motive (.b c imm24))
    (bl : ∀ c imm24, motive (.bl c imm24))
    (bx : ∀ c rm, motive (.bx c rm))
    (blxReg : ∀ c rm, motive (.blxReg c rm))
    (blxLabel : ∀ h imm24, motive (.blxLabel h imm24))
    (mrs : ∀ c psr rd, motive (.mrs c psr rd))
    (msrImm : ∀ c psr mask rotate imm8, motive (.msrImm c psr mask rotate imm8))
    (msrReg : ∀ c psr mask rm, motive (.msrReg c psr mask rm))
    (undefined : ∀ c hi lo, motive (.undefined c hi lo)) (i : Instr) : motive i := by
  cases i with
  | mul => exact mul ..
  | mla => exact mla ..
  | umull => exact umull ..
  | umlal => exact umlal ..
  | smull => exact smull ..
  | smlal => exact smlal ..
  | b => exact b ..
  | bl => exact bl ..
  | bx => exact bx ..
  | blxReg => exact blxReg ..
  | blxLabel => exact blxLabel ..
  | mrs => exact mrs ..
  | msrImm => exact msrImm ..
  | msrReg => exact msrReg ..
  | undefined => exact undefined ..
  | _ => first | exact dp _ _ rfl | exact transfer _ _ rfl

/-! ## Restriction and condition by shape -/

/-- The two ways of asking for the restriction of a data-processing instruction agree. -/
theorem restriction_of_dpView {i : Instr} {d : DpView} (h : dpView i = some d) :
    i.restriction = d.operand.restriction d.rn d.rd := by
  cases i <;> cases h <;> rfl

theorem conditionOf_of_dpView {i : Instr} {d : DpView} (h : dpView i = some d) :
    conditionOf i = some d.c := by
  cases i <;> cases h <;> rfl

/-- The two ways of asking for the restriction of a transfer agree. -/
theorem restriction_of_transferView {i : Instr} {x : TransferView} (h : transferView i = some x) :
    i.restriction = x.am.restriction x.rd15 x.rd := by
  cases i <;> cases h <;> rfl

theorem conditionOf_of_transferView {i : Instr} {x : TransferView} (h : transferView i = some x) :
    conditionOf i = some x.c := by
  cases i <;> cases h <;> rfl

/-- A transfer asks its restriction and its condition before the access. -/
theorem exec_transfer_guarded {i : Instr} {x : TransferView} (h : transferView i = some x) :
    ∃ body, ∀ s, exec i s = guarded (x.am.restriction x.rd15 x.rd) x.c body s := by
  cases hload : x.load
  · exact ⟨_, fun s => by rw [exec_of_transferView h, hload]; rfl⟩
  · exact ⟨_, fun s => by rw [exec_of_transferView h, hload]; rfl⟩

/-- Every instruction but BLX label asks its own restriction, then its condition, before it
does anything else (rule R153). -/
theorem exec_guarded (i : Instr) :
    (∃ c body, conditionOf i = some c ∧ ∀ s, exec i s = guarded i.restriction c body s) ∨
      ∃ h imm24, i = .blxLabel h imm24 := by
  cases i using byShape with
  | dp i d h =>
    exact .inl ⟨d.c, _, conditionOf_of_dpView h, fun s => by
      rw [restriction_of_dpView h]; exact exec_of_dpView h s⟩
  | transfer i x h =>
    obtain ⟨body, hbody⟩ := exec_transfer_guarded h
    exact .inl ⟨x.c, body, conditionOf_of_transferView h, by
      rwa [restriction_of_transferView h]⟩
  | blxLabel h imm24 => exact .inr ⟨h, imm24, rfl⟩
  | _ => exact .inl ⟨_, _, rfl, fun _ => rfl⟩

/-- Settles O13: where the condition fails the instruction is `advance`. -/
theorem failedCondition : Obligations.FailedCondition := by
  intro i c s hcond hrestr hfail
  have hexec : exec i s = advance s := by
    rcases exec_guarded i with ⟨c', body, hc', hbody⟩ | ⟨h, imm24, rfl⟩
    · obtain rfl : c' = c := Option.some.inj (hc'.symm.trans hcond)
      rw [hbody, guarded_fail hrestr hfail]
    · cases hcond
  rw [hexec]
  exact ⟨advance_of_lt, advance_top⟩

end Sys2Proof.Machine
end

section
/-!
PROOFS. What a step can do, said once: a confined change, an exception, a return from one, or
an MSR. The statements about every step follow from it.
-/

namespace Sys2Proof.Machine

/-! ## Word alignment of the pc (rules R26, R67, R136) -/

/-- In ARM state the pc is word aligned: the half of `State.Inv` that is not about memory. -/
def State.PcAligned (s : State) : Prop := s.cpsr.t = false → s.pc.extractLsb' 0 2 = 0

/-- The invariant is the form of memory and the alignment of the pc. -/
theorem State.inv_iff (s : State) : s.Inv ↔ Memory.wf s.mem = true ∧ s.PcAligned := Iff.rfl

theorem aligned_iff_toNat (a : Word) : a.extractLsb' 0 2 = 0 ↔ a.toNat % 4 = 0 := by
  rw [← BitVec.toNat_inj, BitVec.extractLsb'_toNat]
  rfl

theorem aligned_iff_bits (a : Word) :
    a.extractLsb' 0 2 = 0 ↔ a.getLsbD 0 = false ∧ a.getLsbD 1 = false := by
  constructor
  · intro h
    exact ⟨by simpa using congrArg (BitVec.getLsbD · 0) h,
      by simpa using congrArg (BitVec.getLsbD · 1) h⟩
  · rintro ⟨h0, h1⟩
    ext k hk
    interval_cases k
    · simpa using h0
    · simpa using h1

theorem aligned_add_four {a : Word} (h : a.extractLsb' 0 2 = 0) :
    (a + 4).extractLsb' 0 2 = 0 := by
  rw [aligned_iff_toNat] at h ⊢
  rw [BitVec.toNat_add, show BitVec.toNat (4 : Word) = 4 from rfl]
  omega

/-- The offset of a branch is a multiple of four. -/
theorem four_dvd_branchOffset (imm24 : BitVec 24) : (4 : Int) ∣ (branchOffset imm24).toInt := by
  have hword : (imm24 ++ 0#2).toNat = 4 * imm24.toNat := by
    rw [BitVec.toNat_append, Nat.shiftLeft_eq]
    simp [Nat.mul_comm]
  rw [branchOffset, BitVec.toInt_signExtend_of_le (by decide), BitVec.toInt_eq_toNat_cond, hword]
  split <;> omega

/-- A branch from an aligned pc goes to an aligned target (rules R131, R132). -/
theorem branchTarget_aligned {s : State} (imm24 : BitVec 24) (hpc : s.pc.extractLsb' 0 2 = 0) :
    (BitVec.ofInt 32 (branchTarget imm24 0 s)).extractLsb' 0 2 = 0 := by
  have hoff := four_dvd_branchOffset imm24
  rw [aligned_iff_toNat] at hpc ⊢
  rw [BitVec.toNat_ofInt]
  unfold branchTarget
  omega

/-- Bit 0 cleared, an address is aligned if its bit 1 is clear (rules R133, R293). -/
theorem aligned_and_not_one {v : Word} (h : v.getLsbD 1 = false) :
    (v &&& 0xFFFFFFFE).extractLsb' 0 2 = 0 := by
  rw [aligned_iff_bits, BitVec.getLsbD_and, BitVec.getLsbD_and, h, Bool.false_and]
  exact ⟨Bool.and_false _, rfl⟩

theorem bits_eq_two {v : Word} (h0 : v.getLsbD 0 = false) (h1 : v.getLsbD 1 = true) :
    v.extractLsb' 0 2 = 0b10#2 := by
  ext k hk
  interval_cases k
  · simpa using h0
  · simpa using h1

/-! ## What keeps memory -/

/-- The platform and the boundary are as before, memory keeps its form, and no byte of the
program text changes (rules R44, R78). -/
structure MemorySafe (s t : State) : Prop where
  platform : t.platform = s.platform
  boundary : t.boundary = s.boundary
  wf : Memory.wf s.mem = true → Memory.wf t.mem = true
  text : Memory.wf s.mem = true →
    ∀ a, s.platform.admits .fetch a = true → t.readByte a = s.readByte a

/-- Where memory is not written. -/
theorem MemorySafe.of_mem {s t : State} (hp : t.platform = s.platform)
    (hb : t.boundary = s.boundary) (hm : t.mem = s.mem) : MemorySafe s t where
  platform := hp
  boundary := hb
  wf h := by rwa [hm]
  text _ a _ := State.readByte_of_mem hm a

theorem MemorySafe.trans {s t u : State} (h₁ : MemorySafe s t) (h₂ : MemorySafe t u) :
    MemorySafe s u where
  platform := h₂.platform.trans h₁.platform
  boundary := h₂.boundary.trans h₁.boundary
  wf h := h₂.wf (h₁.wf h)
  text h a ha := (h₂.text (h₁.wf h) a (by rwa [h₁.platform])).trans (h₁.text h a ha)

/-- A store outside the program text (rule R78). -/
theorem MemorySafe.storeAt {s : State} {w : Width} {a : Word} (v : Word)
    (h : ∀ x ∈ w.addresses a, s.platform.admits .fetch x = false) :
    MemorySafe s (s.storeAt w a v) where
  platform := State.storeAt_platform s w a v
  boundary := State.storeAt_boundary s w a v
  wf hwf := State.wf_storeAt hwf w a v
  text hwf x hx := State.readByte_storeAt_of_not_mem hwf w a v x fun hmem => by
    simp [h x hmem] at hx

/-! ## Confined changes -/

/-- What an instruction may change that takes no exception, returns from none and is no MSR:
the registers its mode names, memory outside the program text, N, Z, C, V and T, and the pc,
which stays aligned in ARM state. -/
structure Confined (s t : State) : Prop where
  otherBanks : ∀ p, (∀ i, visible s.cpsr.mode i ≠ some p) → t.reg p = s.reg p
  spsr : t.spsr = s.spsr
  mode : t.cpsr.mode = s.cpsr.mode
  irqMask : t.cpsr.i = s.cpsr.i
  fiqMask : t.cpsr.f = s.cpsr.f
  memory : MemorySafe s t
  aligned : s.PcAligned → t.PcAligned

theorem Confined.refl (s : State) : Confined s s where
  otherBanks _ _ := rfl
  spsr := rfl
  mode := rfl
  irqMask := rfl
  fiqMask := rfl
  memory := .of_mem rfl rfl rfl
  aligned := id

theorem Confined.trans {s t u : State} (h₁ : Confined s t) (h₂ : Confined t u) :
    Confined s u where
  otherBanks p hp := (h₂.otherBanks p (by rwa [h₁.mode])).trans (h₁.otherBanks p hp)
  spsr := h₂.spsr.trans h₁.spsr
  mode := h₂.mode.trans h₁.mode
  irqMask := h₂.irqMask.trans h₁.irqMask
  fiqMask := h₂.fiqMask.trans h₁.fiqMask
  memory := h₁.memory.trans h₂.memory
  aligned := h₂.aligned ∘ h₁.aligned

/-- A write of the flags, of T and of the pc. -/
theorem Confined.of_cpsr_pc {s : State} {p : Cpsr} {pc : Word} (hmode : p.mode = s.cpsr.mode)
    (hi : p.i = s.cpsr.i) (hf : p.f = s.cpsr.f)
    (ha : s.PcAligned → p.t = false → pc.extractLsb' 0 2 = 0) :
    Confined s { s with cpsr := p, pc := pc } where
  otherBanks _ _ := rfl
  spsr := rfl
  mode := hmode
  irqMask := hi
  fiqMask := hf
  memory := .of_mem rfl rfl rfl
  aligned := ha

theorem Confined.of_pc {s : State} {pc : Word}
    (ha : s.PcAligned → s.cpsr.t = false → pc.extractLsb' 0 2 = 0) :
    Confined s { s with pc := pc } := .of_cpsr_pc rfl rfl rfl ha

theorem Confined.of_flags (s : State) (n z c v : Bool) :
    Confined s { s with cpsr := { s.cpsr with n := n, z := z, c := c, v := v } } :=
  .of_cpsr_pc rfl rfl rfl id

theorem Confined.next_pc (s : State) : Confined s { s with pc := s.pc + 4 } :=
  .of_pc fun h ht => aligned_add_four (h ht)

theorem Confined.of_advance {s t : State} (h : advance s = .next t) : Confined s t := by
  obtain ⟨-, rfl⟩ := advance_next h
  exact .next_pc s

theorem Confined.setFlags (s : State) (sf : Bool) (o : AluOut) : Confined s (s.setFlags sf o) := by
  unfold State.setFlags
  split
  · exact .of_flags s ..
  · exact .refl s

theorem Confined.setMulFlags (s : State) (sf : Bool) (v : Word) :
    Confined s (s.setMulFlags sf v) := by
  unfold State.setMulFlags
  split
  · exact .of_flags s ..
  · exact .refl s

theorem Confined.setLongFlags (s : State) (sf : Bool) (v : BitVec 64) :
    Confined s (s.setLongFlags sf v) := by
  unfold State.setLongFlags
  split
  · exact .of_flags s ..
  · exact .refl s

/-- A write by number reaches the registers of the mode only (rule R24). -/
theorem Confined.writeReg (s : State) {i : Reg} (v : Word) (hi : i ≠ 15) :
    Confined s (s.writeReg i v) where
  otherBanks p hp := by rw [State.reg_writeReg, if_neg (hp i)]
  spsr := State.writeReg_spsr s i v
  mode := by rw [State.writeReg_cpsr]
  irqMask := by rw [State.writeReg_cpsr]
  fiqMask := by rw [State.writeReg_cpsr]
  memory := .of_mem (State.writeReg_platform s i v) (State.writeReg_boundary s i v)
    (State.writeReg_mem s i v)
  aligned h := by rwa [State.PcAligned, State.writeReg_cpsr, State.writeReg_pc s v hi]

theorem Confined.link (s : State) : Confined s (link s) := .writeReg s _ (by decide)

theorem Confined.writeBack {am : Addressing} (v : Word) (s : State)
    (h : am.wb = true → am.rn ≠ 15) : Confined s (am.writeBack v s) := by
  unfold Addressing.writeBack
  split
  · next hw => exact .writeReg s v (h hw)
  · exact .refl s

theorem Confined.storeAt {s : State} {w : Width} {a : Word} (v : Word)
    (h : ∀ x ∈ w.addresses a, s.platform.admits .fetch x = false) :
    Confined s (s.storeAt w a v) where
  otherBanks p _ := State.storeAt_reg s w a v p
  spsr := State.storeAt_spsr s w a v
  mode := by rw [State.storeAt_cpsr]
  irqMask := by rw [State.storeAt_cpsr]
  fiqMask := by rw [State.storeAt_cpsr]
  memory := .storeAt v h
  aligned h := by rwa [State.PcAligned, State.storeAt_cpsr, State.storeAt_pc]

/-! ## Effects -/

/-- An MSR to an SPSR, in either form. -/
def IsMsrSpsr (i : Instr) : Prop :=
  ∃ c mask, (∃ rotate imm8, i = .msrImm c .spsr mask rotate imm8) ∨
    ∃ rm, i = .msrReg c .spsr mask rm

/-- Everything a step can do before the boundary moves on; `i` is the instruction executed,
if one is. -/
inductive Effect (i : Option Instr) (s : State) : State → Prop where
  /-- An instruction with no effect beyond its mode. -/
  | confined {t : State} (h : Confined s t) : Effect i s t
  /-- An exception, with the base register of a transfer updated or not (rules R307, R340). -/
  | exception (k : ExceptionKind) {u : State} (h : Confined s u) (hcpsr : u.cpsr = s.cpsr) :
    Effect i s (takeException k u)
  /-- The return from an exception (rule R342). -/
  | exceptionReturn {e : ExcMode} {p : Cpsr} {target : Word} (hexc : s.cpsr.mode.exc = some e)
    (ha : p.t = false → target.extractLsb' 0 2 = 0) : Effect i s { s with cpsr := p, pc := target }
  /-- MSR to the CPSR, which writes neither T nor, in User mode, I, F or the mode (rule R274). -/
  | msrCpsr {p : Cpsr} (ht : p.t = s.cpsr.t) (hmode : p.mode ≠ s.cpsr.mode → s.cpsr.mode ≠ .usr)
    (hmask : s.cpsr.mode = .usr → p.i = s.cpsr.i ∧ p.f = s.cpsr.f) :
    Effect i s { s with cpsr := p, pc := s.pc + 4 }
  /-- MSR to the SPSR of the mode (rule R274). -/
  | msrSpsr {j : Instr} {e : ExcMode} {p : Spsr} (hi : i = some j) (hj : IsMsrSpsr j)
    (hexc : s.cpsr.mode.exc = some e) :
    Effect i s { s with spsr := s.spsr.set e p, pc := s.pc + 4 }

section Meanings

variable {i : Option Instr} {s t : State}

theorem Effect.of_guarded {r : Option Restriction} {c : Cond} {body : State → Result}
    (h : guarded r c body s = .next t) (hbody : r = none → body s = .next t → Effect i s t) :
    Effect i s t := by
  obtain ⟨hr, ⟨-, hb⟩ | ⟨-, hadv⟩⟩ := guarded_next h
  · exact hbody hr hb
  · exact .confined (.of_advance hadv)

/-! ### Data processing and the multiplies -/

theorem Effect.of_writeResult {sf : Bool} {rd : Reg} {o : AluOut}
    (h : writeResult sf rd o s = .next t) : Effect i s t := by
  rcases writeResult_next h with ⟨hrd, -, rfl⟩ | ⟨-, -, ha, rfl⟩ | ⟨-, -, hret⟩
  · have hpc : s.pc = ((s.writeReg rd o.value).setFlags sf o).pc := by
      rw [State.setFlags_pc, State.writeReg_pc s _ hrd]
    rw [hpc]
    exact .confined (((Confined.writeReg s _ hrd).trans (.setFlags _ _ _)).trans (.next_pc _))
  · exact .confined (.of_pc fun _ _ => ha)
  · obtain ⟨e, p, hexc, -, ha, -, rfl⟩ := returnFromException_next hret
    exact .exceptionReturn hexc ha

theorem Effect.of_dpView {j : Instr} {d : DpView} (hd : dpView j = some d)
    (h : exec j s = .next t) : Effect i s t := by
  rw [exec_of_dpView hd] at h
  refine .of_guarded h fun _ hb => ?_
  cases hop : isCompare d.op
  · rw [hop, cond_false] at hb
    exact .of_writeResult hb
  · rw [hop, cond_true] at hb
    exact .confined ((Confined.setFlags s _ _).trans (.of_advance hb))

theorem mulRestriction_none_rd {rd rn rs rm : Reg} (h : mulRestriction rd rn rs rm = none) :
    rd ≠ 15 := by
  rintro rfl
  simp [mulRestriction] at h

theorem mullRestriction_none_rd {rdHi rdLo rs rm : Reg}
    (h : mullRestriction rdHi rdLo rs rm = none) :
    rdHi ≠ 15 ∧ rdLo ≠ 15 := by
  constructor <;> rintro rfl <;> simp [mullRestriction] at h

theorem Effect.of_multiply {rd rn rs rm : Reg} {c : Cond} {sf : Bool} {acc : State → Word}
    (h : multiply (mulRestriction rd rn rs rm) c sf rd rs rm acc s = .next t) : Effect i s t :=
  .of_guarded h fun hr hb => .confined
    (((Confined.writeReg s _ (mulRestriction_none_rd hr)).trans (.setMulFlags _ _ _)).trans
      (.of_advance hb))

theorem Effect.of_longMultiply {p : Word → Word → BitVec 64} {c : Cond} {sf : Bool}
    {rdHi rdLo rs rm : Reg} {acc : State → BitVec 64}
    (h : longMultiply p c sf rdHi rdLo rs rm acc s = .next t) : Effect i s t :=
  .of_guarded h fun hr hb =>
    have ⟨hhi, hlo⟩ := mullRestriction_none_rd hr
    .confined ((((Confined.writeReg s _ hhi).trans (.writeReg _ _ hlo)).trans
      (.setLongFlags _ _ _)).trans (.of_advance hb))

/-! ### Branches -/

theorem Confined.of_exchange {r : Refusal} {v : Word} (h : exchange r v s = .next t) :
    Confined s t := by
  obtain ⟨hbits, rfl⟩ := exchange_next h
  exact .of_cpsr_pc rfl rfl rfl fun _ ht =>
    aligned_and_not_one (by simpa using fun h1 => hbits ⟨ht, h1⟩)

/-- B and BL: from `u`, which is the state before with or without the link. -/
theorem Confined.of_branchTo {imm24 : BitVec 24} {last : Int} {u : State} (hpc : u.pc = s.pc)
    (h : branchTo (branchTarget imm24 0 s) last u = .next t) : Confined u t := by
  obtain ⟨-, -, rfl⟩ := branchTo_next h
  exact .of_pc fun ha ht => branchTarget_aligned imm24 (hpc ▸ ha ht)

theorem link_pc (s : State) : (link s).pc = s.pc := State.writeReg_pc s _ (by decide)

theorem Effect.of_b {c : Cond} {imm24 : BitVec 24} (h : execB c imm24 s = .next t) :
    Effect i s t :=
  .of_guarded h fun _ hb => .confined (.of_branchTo rfl hb)

theorem Effect.of_bl {c : Cond} {imm24 : BitVec 24} (h : execBl c imm24 s = .next t) :
    Effect i s t :=
  .of_guarded h fun _ hb => .confined ((Confined.link s).trans (.of_branchTo (link_pc s) hb))

theorem Effect.of_bx {c : Cond} {rm : Reg} (h : execBx c rm s = .next t) : Effect i s t :=
  .of_guarded h fun _ hb => .confined (.of_exchange hb)

theorem Effect.of_blxReg {c : Cond} {rm : Reg} (h : execBlxReg c rm s = .next t) :
    Effect i s t :=
  .of_guarded h fun _ hb => .confined ((Confined.link s).trans (.of_exchange hb))

theorem Effect.of_blxLabel {half : Bool} {imm24 : BitVec 24}
    (h : execBlxLabel half imm24 s = .next t) : Effect i s t := by
  obtain ⟨-, -, rfl⟩ := branchTo_next h
  exact .confined ((Confined.link s).trans (.of_cpsr_pc rfl rfl rfl fun _ ht => by cases ht))

/-! ### Status registers -/

theorem notR15_none {why : Restriction} {r : Reg} (h : notR15 why r = none) : r ≠ 15 := by
  rintro rfl
  simp [notR15] at h

theorem Effect.of_msrWrite {psr : PsrSel} {mask : BitVec 4} {v : Word} {j : Instr}
    (hi : psr = .spsr → IsMsrSpsr j) (h : msrWrite psr mask v s = .next t) :
    Effect (some j) s t := by
  unfold msrWrite at h
  split at h
  · cases h
  · cases psr with
    | cpsr =>
      obtain ⟨-, p, rfl, ht, hmode, hmask⟩ := msrCpsr_next h
      exact .msrCpsr ht hmode hmask
    | spsr =>
      obtain ⟨-, e, p, hexc, rfl⟩ := msrSpsr_next h
      exact .msrSpsr rfl (hi rfl) hexc

theorem Effect.of_mrs {c : Cond} {psr : PsrSel} {rd : Reg} (h : execMrs c psr rd s = .next t) :
    Effect i s t := by
  refine .of_guarded h fun hr hb => ?_
  split at hb
  · cases hb
  · exact .confined ((Confined.writeReg s _ (notR15_none hr)).trans (.of_advance hb))

theorem Effect.of_msrImm {c : Cond} {psr : PsrSel} {mask rotate : BitVec 4} {imm8 : BitVec 8}
    (h : execMsrImm c psr mask rotate imm8 s = .next t) :
    Effect (some (.msrImm c psr mask rotate imm8)) s t :=
  .of_guarded h fun _ hb => .of_msrWrite (fun hp => ⟨c, mask, .inl ⟨rotate, imm8, hp ▸ rfl⟩⟩) hb

theorem Effect.of_msrReg {c : Cond} {psr : PsrSel} {mask : BitVec 4} {rm : Reg}
    (h : execMsrReg c psr mask rm s = .next t) : Effect (some (.msrReg c psr mask rm)) s t :=
  .of_guarded h fun _ hb => .of_msrWrite (fun hp => ⟨c, mask, .inr ⟨rm, hp ▸ rfl⟩⟩) hb

/-! ### Transfers -/

theorem Effect.of_dataAbort {am : Addressing} {rd15 : Option Restriction} {rd : Reg}
    (hr : am.restriction rd15 rd = none) : Effect i s (dataAbort am s) := by
  rcases dataAbort_eq am s with heq | ⟨hwb, heq⟩ <;> rw [heq]
  · exact .exception _ (.refl s) rfl
  · exact .exception _ (.writeReg s _ (Addressing.base_ne_fifteen hr hwb))
      (State.writeReg_cpsr s _ _)

theorem Confined.of_finishLoad {am : Addressing} {rd : Reg} {data : Word}
    (hbase : am.wb = true → am.rn ≠ 15) (h : finishLoad am rd data s = .next t) :
    Confined s t := by
  unfold finishLoad at h
  split at h
  · split at h
    · cases h
    · next hbits =>
      obtain rfl := Host.Outcome.next.inj h
      have halign : data.getLsbD 0 = false → (data &&& 0xFFFFFFFE).extractLsb' 0 2 = 0 :=
        fun h0 => aligned_and_not_one (by simpa using fun h1 => hbits (bits_eq_two h0 h1))
      refine .trans ?_ (.writeBack _ _ hbase)
      exact .of_cpsr_pc rfl rfl rfl fun _ => halign
  · next hrd =>
    exact ((Confined.writeReg s _ hrd).trans (.writeBack _ _ hbase)).trans (.of_advance h)

theorem Effect.of_transferView {j : Instr} {x : TransferView} (hx : transferView j = some x)
    (h : exec j s = .next t) : Effect i s t := by
  rw [exec_of_transferView hx] at h
  cases hload : x.load <;> rw [hload] at h
  · obtain ⟨hr, ⟨-, hadv⟩ | ⟨-, ⟨-, rfl⟩ | ⟨a, hacc, hadv⟩⟩⟩ := store_next h
    · exact .confined (.of_advance hadv)
    · exact .of_dataAbort hr
    · obtain ⟨-, -, htext, -⟩ := checkAdmission_at (checkAccess_at hacc).1
      exact .confined (((Confined.storeAt _ (htext rfl)).trans
        (.writeBack _ _ (Addressing.base_ne_fifteen hr))).trans (.of_advance hadv))
  · obtain ⟨hr, ⟨-, hadv⟩ | ⟨-, ⟨-, rfl⟩ | ⟨a, -, hfin⟩⟩⟩ := load_next h
    · exact .confined (.of_advance hadv)
    · exact .of_dataAbort hr
    · exact .confined (.of_finishLoad (Addressing.base_ne_fifteen hr) hfin)

/-! ### Every instruction, and the step -/

theorem Effect.of_takeException (k : ExceptionKind) : Effect i s (takeException k s) :=
  .exception k (.refl s) rfl

theorem Effect.of_undefined {c : Cond} {hi : BitVec 20} {lo : BitVec 4}
    (h : execUndefined c hi lo s = .next t) : Effect i s t :=
  .of_guarded h fun _ hb => Host.Outcome.next.inj hb ▸ .of_takeException _

/-- What an instruction that completes can do. -/
theorem exec_effect {j : Instr} (h : exec j s = .next t) : Effect (some j) s t := by
  cases j using byShape with
  | dp j d hd => exact .of_dpView hd h
  | transfer j x hx => exact .of_transferView hx h
  | mul c sf rd rs rm =>
    change execMul c sf rd rs rm s = _ at h
    exact .of_multiply h
  | mla c sf rd rn rs rm =>
    change execMla c sf rd rn rs rm s = _ at h
    exact .of_multiply h
  | umull c sf rdHi rdLo rs rm =>
    change execUmull c sf rdHi rdLo rs rm s = _ at h
    exact .of_longMultiply h
  | umlal c sf rdHi rdLo rs rm =>
    change execUmlal c sf rdHi rdLo rs rm s = _ at h
    exact .of_longMultiply h
  | smull c sf rdHi rdLo rs rm =>
    change execSmull c sf rdHi rdLo rs rm s = _ at h
    exact .of_longMultiply h
  | smlal c sf rdHi rdLo rs rm =>
    change execSmlal c sf rdHi rdLo rs rm s = _ at h
    exact .of_longMultiply h
  | b => exact .of_b h
  | bl => exact .of_bl h
  | bx => exact .of_bx h
  | blxReg => exact .of_blxReg h
  | blxLabel => exact .of_blxLabel h
  | mrs => exact .of_mrs h
  | msrImm => exact .of_msrImm h
  | msrReg => exact .of_msrReg h
  | undefined c hi lo => exact .of_undefined (hi := hi) (lo := lo) h

/-- The word at the pc executed: an instruction it decodes to, and that one's effect. -/
theorem executeWord_effect {w : Word} (h : executeWord w s = .next t) :
    ∃ j, decode w = .ok j ∧ Effect (some j) s t := by
  unfold executeWord at h
  split at h
  · next j hj => exact ⟨j, hj, exec_effect h⟩
  · cases h

theorem fetch_eq_word {w : Word} (h : fetch s = .word w) : w = s.readWord s.pc := by
  unfold fetch at h
  split at h
  · cases h
  · split at h
    · exact (Fetched.word.inj h).symm
    · cases h

/-- The instruction at the pc: a Prefetch Abort, or the meaning of the word there. -/
theorem executeNext_effect (h : executeNext s = .next t) :
    ∃ i, (∀ j, i = some j → decode (s.readWord s.pc) = .ok j) ∧ Effect i s t := by
  unfold executeNext at h
  split at h
  · cases h
  · split at h
    · exact ⟨none, fun _ hj => (by cases hj), Host.Outcome.next.inj h ▸ .of_takeException _⟩
    · cases h
    · next w hw =>
      obtain ⟨j, hj, heff⟩ := executeWord_effect h
      rw [fetch_eq_word hw] at hj
      exact ⟨some j, fun _ h => Option.some.inj h ▸ hj, heff⟩

theorem nextBoundary_next {r : Result} (h : nextBoundary r = .next t) :
    ∃ u, r = .next u ∧ t = { u with boundary := u.boundary + 1 } := by
  cases r with
  | next u => exact ⟨u, rfl, (Host.Outcome.next.inj h).symm⟩
  | fault => cases h
  | refused => cases h

/-- What a step can do: the effect of an interrupt, a Prefetch Abort or the instruction at the
pc, at the next boundary (rules R16, R346, R388). -/
theorem step_effect (h : step s = .next t) :
    ∃ i u, (∀ j, i = some j → decode (s.readWord s.pc) = .ok j) ∧ Effect i s u ∧
      t = { u with boundary := u.boundary + 1 } := by
  unfold step cycle at h
  split at h
  · cases h
  · split at h
    · next k _ =>
      exact ⟨none, _, fun _ hj => (by cases hj), .of_takeException k,
        (Host.Outcome.next.inj h).symm⟩
    · obtain ⟨u, hu, ht⟩ := nextBoundary_next h
      obtain ⟨i, hi, heff⟩ := executeNext_effect hu
      exact ⟨i, u, hi, heff, ht⟩

end Meanings

end Sys2Proof.Machine
end

section
/-!
PROOFS. The statements about every step: O54 to O60 but O57 (10_state.md rules R24, R26, R32,
R36, R39, R44; 20_memory.md rules R67, R78; 60_exceptions.md rule R340).
-/

namespace Sys2Proof.Machine

/-! ## What each effect keeps -/

section Effects

variable {i : Option Instr} {s t : State}

/-- No effect writes the program text, the platform or the boundary. -/
theorem Effect.memorySafe (h : Effect i s t) : MemorySafe s t := by
  cases h with
  | confined h => exact h.memory
  | exception k h => exact h.memory.trans (.of_mem rfl rfl rfl)
  | exceptionReturn => exact .of_mem rfl rfl rfl
  | msrCpsr => exact .of_mem rfl rfl rfl
  | msrSpsr => exact .of_mem rfl rfl rfl

theorem Effect.pcAligned (h : Effect i s t) (hs : s.PcAligned) : t.PcAligned := by
  cases h with
  | confined h => exact h.aligned hs
  | exception k => exact fun _ => takeException_pc_aligned k _
  | exceptionReturn _ ha => exact ha
  | msrCpsr ht => exact fun h => aligned_add_four (hs (ht ▸ h))
  | msrSpsr => exact fun h => aligned_add_four (hs h)

/-- No exception is taken to User mode. -/
theorem ExcMode.toMode_ne_usr (e : ExcMode) : e.toMode ≠ .usr := by cases e <;> decide

theorem Mode.eq_toMode_of_exc {m : Mode} {e : ExcMode} (h : m.exc = some e) : m = e.toMode := by
  cases m <;> cases h <;> rfl

theorem Effect.masks_of_usr (h : Effect i s t) (hs : s.cpsr.mode = .usr)
    (ht : t.cpsr.mode = .usr) : t.cpsr.i = s.cpsr.i ∧ t.cpsr.f = s.cpsr.f := by
  cases h with
  | confined h => exact ⟨h.irqMask, h.fiqMask⟩
  | exception k => exact absurd ht k.mode.toMode_ne_usr
  | @exceptionReturn e p target hexc =>
    exact absurd ((Mode.eq_toMode_of_exc hexc).symm.trans hs) e.toMode_ne_usr
  | msrCpsr _ _ hmask => exact hmask hs
  | msrSpsr => exact ⟨rfl, rfl⟩

theorem Effect.otherBanks (h : Effect i s t) {p : PhysReg}
    (hp : ∀ r, visible s.cpsr.mode r ≠ some p) (hlink : p ≠ linkReg t.cpsr.mode) :
    t.reg p = s.reg p := by
  cases h with
  | confined h => exact h.otherBanks p hp
  | @exception k u h =>
    obtain ⟨-, -, -, hreg, -⟩ := takeException_spec k u
    rw [hreg, if_neg fun heq => hlink heq.symm]
    exact h.otherBanks p hp
  | exceptionReturn => rfl
  | msrCpsr => rfl
  | msrSpsr => rfl

/-- The two ways an SPSR changes: the entry of an exception to its mode, or an MSR in it. -/
theorem Effect.spsr_changed (h : Effect i s t) {e : ExcMode} (hne : t.spsr.get e ≠ s.spsr.get e) :
    (t.spsr.get e = Spsr.ofCpsr s.cpsr ∧
      ∃ k : ExceptionKind, k.mode = e ∧ t.cpsr.mode = e.toMode ∧
        t.pc = Config.vectorBase + k.vector) ∨
    (s.cpsr.mode = e.toMode ∧ t.cpsr = s.cpsr ∧ ∃ j, i = some j ∧ IsMsrSpsr j) := by
  cases h with
  | confined h => exact absurd (by rw [h.spsr]) hne
  | @exception k u h hcpsr =>
    obtain ⟨-, -, hspsr, -⟩ := takeException_spec k u
    rw [hspsr, h.spsr] at hne
    by_cases hk : k.mode = e
    · exact .inl ⟨by rw [hspsr, if_pos hk, hcpsr], k, hk, hk ▸ rfl, rfl⟩
    · exact absurd (if_neg hk) hne
  | exceptionReturn => exact absurd rfl hne
  | msrCpsr => exact absurd rfl hne
  | @msrSpsr j e' p hi hj hexc =>
    rw [SpsrBank.get_set] at hne
    by_cases he : e' = e
    · exact .inr ⟨he ▸ Mode.eq_toMode_of_exc hexc, rfl, j, hi, hj⟩
    · exact absurd (if_neg he) hne

end Effects

/-! ## The statements -/

/-- Settles O54: each effect keeps the form of memory and the alignment of the pc. -/
theorem stepKeepsInvariant : Obligations.StepKeepsInvariant := by
  intro s t hinv hstep
  obtain ⟨hwf, hpc⟩ := s.inv_iff.mp hinv
  obtain ⟨i, u, -, heff, rfl⟩ := step_effect hstep
  exact (State.inv_iff _).mpr ⟨heff.memorySafe.wf hwf, heff.pcAligned hpc⟩

/-- Settles O55: memory is empty, and the pc is at an aligned vector. -/
theorem resetInvariant : Obligations.ResetInvariant := ⟨Memory.wf_reset, fun _ => rfl⟩

/-- Settles O56: each effect is memory safe, and the boundary is then the next. -/
theorem programTextFixed : Obligations.ProgramTextFixed := by
  intro s t hwf hstep
  obtain ⟨i, u, -, heff, rfl⟩ := step_effect hstep
  obtain ⟨hplatform, hboundary, -, htext⟩ := heff.memorySafe
  exact ⟨hplatform, congrArg (· + 1) hboundary, htext hwf⟩

/-- Settles O58: only an exception, a return from one or an MSR reaches I and F, and in User
mode none does that stays in it. -/
theorem userModeKeepsMasks : Obligations.UserModeKeepsMasks := by
  intro s t hs hstep ht
  obtain ⟨i, u, -, heff, rfl⟩ := step_effect hstep
  exact heff.masks_of_usr hs ht

/-- Settles O59: the only write to another bank is the link of an exception. -/
theorem otherBanksKept : Obligations.OtherBanksKept := by
  intro s t hstep p hp hlink
  obtain ⟨i, u, -, heff, rfl⟩ := step_effect hstep
  exact heff.otherBanks hp hlink

/-- Settles O60: the instruction of the effect is the one the word at the pc decodes to. -/
theorem spsrsKept : Obligations.SpsrsKept := by
  intro s t hstep e hne
  obtain ⟨i, u, hdecode, heff, rfl⟩ := step_effect hstep
  rcases heff.spsr_changed hne with hentry | ⟨hmode, hcpsr, j, hij, c, mask, hj⟩
  · exact .inl hentry
  · refine .inr ⟨hmode, hcpsr, c, mask, ?_⟩
    have hword := hdecode j hij
    rcases hj with ⟨rotate, imm8, rfl⟩ | ⟨rm, rfl⟩
    · exact .inl ⟨rotate, imm8, hword⟩
    · exact .inr ⟨rm, hword⟩

end Sys2Proof.Machine
end

section
/-!
PROOFS. The operand restrictions, row by row: O14, O15 (10_state.md rule R22,
41_conditional_execution.md rule R153, 46_data_transfer.md rule R306).
-/

namespace Sys2Proof.Machine

/-! ## The rows of rule R306 -/

section Rows

variable {rd15 : Option Restriction} {wb : Bool} {rn rd : Reg} {rm : Option Reg}

theorem transferRestriction_offsetR15 (hm : rm = some 15) :
    transferRestriction rd15 wb rn rd rm = some .offsetR15 := if_pos hm

theorem transferRestriction_writebackR15 (hm : rm ≠ some 15) (hwb : wb = true) (hn : rn = 15) :
    transferRestriction rd15 wb rn rd rm = some .writebackR15 := by
  rw [transferRestriction, if_neg hm, if_pos ⟨hwb, hn⟩]

theorem transferRestriction_writebackRnRd (hm : rm ≠ some 15) (hwb : wb = true) (hn : rn ≠ 15)
    (hd : rn = rd) : transferRestriction rd15 wb rn rd rm = some .writebackRnRd := by
  rw [transferRestriction, if_neg hm, if_neg fun h => hn h.2, if_pos ⟨hwb, hd⟩]

theorem transferRestriction_writebackRmRn (hm : rm ≠ some 15) (hwb : wb = true) (hn : rn ≠ 15)
    (hd : rn ≠ rd) (hmn : rm = some rn) :
    transferRestriction rd15 wb rn rd rm = some .writebackRmRn := by
  rw [transferRestriction, if_neg hm, if_neg fun h => hn h.2, if_neg fun h => hd h.2,
    if_pos ⟨hwb, hmn⟩]

/-- Where the rows on the offset and the write-back are kept, only Rd = R15 is left. -/
theorem transferRestriction_rd15 (hm : rm ≠ some 15)
    (hwb : wb = true → rn ≠ 15 ∧ rn ≠ rd ∧ rm ≠ some rn) :
    transferRestriction rd15 wb rn rd rm = if rd = 15 then rd15 else none := by
  have hn : ¬ (wb = true ∧ rn = 15) := fun ⟨hw, h⟩ => have ⟨h15, _, _⟩ := hwb hw; h15 h
  have hd : ¬ (wb = true ∧ rn = rd) := fun ⟨hw, h⟩ => have ⟨_, hrd, _⟩ := hwb hw; hrd h
  have hmn : ¬ (wb = true ∧ rm = some rn) := fun ⟨hw, h⟩ => have ⟨_, _, hrm⟩ := hwb hw; hrm h
  rw [transferRestriction, if_neg hm, if_neg hn, if_neg hd, if_neg hmn]

end Rows

/-! ## What Rd = R15 breaks -/

/-- LDR breaks nothing, STR its own row, every other transfer the row on transfers. -/
theorem TransferView.rd15_cases {i : Instr} {x : TransferView} (h : transferView i = some x) :
    (x.rd15 = none ∧ x.load = true ∧ x.width = .word) ∨
      (x.rd15 = some .storeR15 ∧ x.load = false ∧ x.width = .word) ∨
      x.rd15 = some .transferR15 := by
  cases i <;> cases h <;> simp

theorem TransferView.rd15_of_store {i : Instr} {x : TransferView}
    (h : transferView i = some x) (hload : x.load = false) :
    x.rd15 = some .storeR15 ∨ x.rd15 = some .transferR15 := by
  rcases rd15_cases h with ⟨-, hl, -⟩ | ⟨hstore, -⟩ | htransfer
  · rw [hload] at hl
    cases hl
  · exact .inl hstore
  · exact .inr htransfer

theorem TransferView.rd15_of_ne_word {i : Instr} {x : TransferView}
    (h : transferView i = some x) (hw : x.width ≠ .word) : x.rd15 = some .transferR15 := by
  rcases rd15_cases h with ⟨-, -, hword⟩ | ⟨-, -, hword⟩ | htransfer
  · exact absurd hword hw
  · exact absurd hword hw
  · exact htransfer

/-! ## The row of rule R185 -/

theorem shiftRegRestriction_eq_none {rn rd rs rm : Reg} (hn : rn ≠ 15) (hd : rd ≠ 15)
    (hs : rs ≠ 15) (hm : rm ≠ 15) : shiftRegRestriction rn rd rs rm = none :=
  if_neg (by tauto)

theorem DpView.restriction_of_shiftReadsR15 {d : DpView} (h : d.shiftReadsR15) :
    d.operand.restriction d.rn d.rd = some .shiftRegR15 := by
  obtain ⟨rs, sh, rm, hop, hr⟩ := h
  rw [hop, Operand2.restriction, shiftRegRestriction, if_pos]
  tauto

theorem DpView.restriction_of_not_shiftReadsR15 {d : DpView} (h : ¬ d.shiftReadsR15) :
    d.operand.restriction d.rn d.rd = none := by
  cases hop : d.operand with
  | imm => rfl
  | shiftImm => rfl
  | shiftReg rs sh rm =>
    have hr : ¬ (d.rd = 15 ∨ d.rn = 15 ∨ rm = 15 ∨ rs = 15) := fun hr => h ⟨rs, sh, rm, hop, hr⟩
    simp only [not_or] at hr
    obtain ⟨hd, hn, hm, hs⟩ := hr
    exact shiftRegRestriction_eq_none hn hd hs hm

/-! ## A broken restriction is refused -/

/-- The meaning refuses what `Instr.restriction` names (log 17); BLX label breaks nothing. -/
theorem refuses_of_restriction {i : Instr} {why : Restriction} (h : i.restriction = some why) :
    Refuses i why := by
  intro s
  rcases exec_guarded i with ⟨c, body, -, hbody⟩ | ⟨half, imm24, rfl⟩
  · rw [hbody, h, guarded_restricted]
  · cases h

theorem refuses_of_transferView {i : Instr} {x : TransferView} {why : Restriction}
    (hx : transferView i = some x)
    (h : transferRestriction x.rd15 x.am.wb x.am.rn x.rd x.am.offset.register = some why) :
    Refuses i why :=
  refuses_of_restriction ((restriction_of_transferView hx).trans h)

/-- Rd = R15 alone, where the other rows are kept. -/
theorem refuses_of_rd15 {i : Instr} {x : TransferView} {why : Restriction}
    (hx : transferView i = some x) (hrows : x.keepsOffsetRows) (hrd : x.rd = 15)
    (h : x.rd15 = some why) : Refuses i why := by
  obtain ⟨hm, hwb⟩ := hrows
  exact refuses_of_transferView hx (by rw [transferRestriction_rd15 hm hwb, if_pos hrd, h])

/-- Settles O14, row by row in the order in which the meaning names the restrictions (log 18). -/
theorem restrictionRefused : Obligations.RestrictionRefused := by
  refine ⟨fun i why => refuses_of_restriction, fun i d hd hr => ?_, fun i x hx => ?_,
    fun c u rn rm imm12 k sh hn => ⟨?_, fun hm hmn => ?_⟩, fun c psr mask => ?_⟩
  · exact refuses_of_restriction
      ((restriction_of_dpView hd).trans (DpView.restriction_of_shiftReadsR15 hr))
  · refine ⟨fun hm => ?_, fun hm hwb => ⟨fun hn => ?_, fun hn hd => ?_, fun hn hd hmn => ?_⟩,
      fun hrows hrd => ⟨fun hload _ => ?_, fun hw => ?_⟩⟩
    · exact refuses_of_transferView hx (transferRestriction_offsetR15 hm)
    · exact refuses_of_transferView hx (transferRestriction_writebackR15 hm hwb hn)
    · exact refuses_of_transferView hx (transferRestriction_writebackRnRd hm hwb hn hd)
    · exact refuses_of_transferView hx (transferRestriction_writebackRmRn hm hwb hn hd hmn)
    · exact (TransferView.rd15_of_store hx hload).imp (refuses_of_rd15 hx hrows hrd)
        (refuses_of_rd15 hx hrows hrd)
    · exact refuses_of_rd15 hx hrows hrd (TransferView.rd15_of_ne_word hx hw)
  · exact refuses_of_rd15 rfl ⟨nofun, fun _ => ⟨hn, hn, nofun⟩⟩ rfl rfl
  · exact refuses_of_rd15 rfl
      ⟨fun h => hm (Option.some.inj h), fun _ => ⟨hn, hn, fun h => hmn (Option.some.inj h)⟩⟩ rfl rfl
  · exact ⟨refuses_of_restriction rfl, refuses_of_restriction rfl, refuses_of_restriction rfl,
      refuses_of_restriction rfl⟩

/-! ## Nothing else is a restriction -/

theorem mulRestriction_eq_none {rd rn rs rm : Reg} (hd : rd ≠ 15) (hn : rn ≠ 15) (hs : rs ≠ 15)
    (hm : rm ≠ 15) (hdm : rd ≠ rm) : mulRestriction rd rn rs rm = none := by
  rw [mulRestriction, if_neg (by tauto), if_neg hdm]

theorem mullRestriction_eq_none {rdHi rdLo rs rm : Reg} (hhi : rdHi ≠ 15) (hlo : rdLo ≠ 15)
    (hs : rs ≠ 15) (hm : rm ≠ 15) (hhilo : rdHi ≠ rdLo) (hhim : rdHi ≠ rm) (hlom : rdLo ≠ rm) :
    mullRestriction rdHi rdLo rs rm = none := by
  rw [mullRestriction, if_neg (by tauto), if_neg (by tauto)]

theorem notR15_eq_none {why : Restriction} {r : Reg} (h : r ≠ 15) : notR15 why r = none := if_neg h

theorem TransferView.restriction_eq_none {x : TransferView} (hrows : x.keepsOffsetRows)
    (hrd : x.rd ≠ 15 ∨ x.rd15 = none) : x.am.restriction x.rd15 x.rd = none := by
  obtain ⟨hm, hwb⟩ := hrows
  rw [Addressing.restriction, transferRestriction_rd15 hm hwb]
  rcases hrd with hrd | hrd
  · rw [if_neg hrd]
  · rw [hrd, ite_self]

/-- Settles O15, by the shapes; LDR is the transfer whose Rd may be R15. -/
theorem noOtherRestriction : Obligations.NoOtherRestriction := by
  refine ⟨fun i d hd hr => ?_, fun i x hx hrows hrd => ?_,
    fun c sf a b rs rm ha hb hs hm ham => ⟨?_, ?_, fun hab hbm => ?_⟩,
    fun c h imm24 psr mask rotate imm8 hi lo r => ⟨rfl, rfl, rfl, rfl, rfl, fun hr => ?_⟩⟩
  · have hnone := DpView.restriction_of_not_shiftReadsR15 hr
    exact ⟨(restriction_of_dpView hd).trans hnone, hnone⟩
  · have hrd15 : x.rd ≠ 15 ∨ x.rd15 = none := by
      rcases hrd with hrd | ⟨c, u, w, rn, imm12, rfl⟩ | ⟨c, u, rn, imm12, rfl⟩ |
        ⟨c, u, w, rn, k, sh, rm, rfl⟩ | ⟨c, u, rn, k, sh, rm, rfl⟩
      · exact .inl hrd
      all_goals cases hx; exact .inr rfl
    have hnone := TransferView.restriction_eq_none hrows hrd15
    exact ⟨(restriction_of_transferView hx).trans hnone, hnone⟩
  · exact mulRestriction_eq_none ha (by decide) hs hm ham
  · exact mulRestriction_eq_none ha hb hs hm ham
  · have hnone := mullRestriction_eq_none ha hb hs hm hab ham hbm
    exact ⟨hnone, hnone, hnone, hnone⟩
  · exact ⟨notR15_eq_none hr, notR15_eq_none hr, notR15_eq_none hr, notR15_eq_none hr⟩

end Sys2Proof.Machine
end

section
/-!
PROOFS. The registers each number names, the bits of the status registers, and reset: O8,
O10, O11 (10_state.md rules R23, R24, R30, R34 to R36, R43, R380).
-/

namespace Sys2Proof.Machine

/-! ## Registers by number -/

theorem fiqElse_of_ne_fiq {m : Mode} (h : m ≠ .fiq) (p q : PhysReg) : fiqElse m p q = q := by
  cases m with
  | fiq => exact absurd rfl h
  | _ => rfl

/-- Settles O8: R0 to R7 and R15 whatever the mode, R8 to R12 by `fiqElse`, R13 and R14 by the
mode. -/
theorem registerBanks : Obligations.RegisterBanks := by
  refine ⟨fun m => ⟨rfl, rfl, rfl, rfl, rfl, rfl, rfl, rfl, rfl⟩, fun m hm => ?_,
    ⟨rfl, rfl, rfl, rfl, rfl⟩, ⟨rfl, rfl, rfl, rfl, rfl, rfl, rfl⟩,
    ⟨rfl, rfl, rfl, rfl, rfl, rfl, rfl⟩⟩
  have bank (p q : PhysReg) : some (fiqElse m p q) = some q :=
    congrArg some (fiqElse_of_ne_fiq hm p q)
  exact ⟨bank _ _, bank _ _, bank _ _, bank _ _, bank _ _⟩

/-- Settles O10, by evaluation of the reset state. -/
theorem resetValues : Obligations.ResetValues := ⟨rfl, rfl, rfl, rfl, rfl, rfl, rfl⟩

/-! ## Status registers as words -/

/-- The reserved bits are zero (rule R35). -/
theorem psrWord_reserved (n z c v i f t : Bool) (m : BitVec 5) :
    (psrWord n z c v i f t m).extractLsb' 8 20 = 0 := by
  ext k hk
  rw [BitVec.getElem_extractLsb', psrWord_getLsbD _ _ _ _ _ _ _ _ (by omega)]
  simp [show ¬ 8 + k < 5 by omega, show 8 + k ≠ 5 by omega, show 8 + k ≠ 6 by omega,
    show 8 + k ≠ 7 by omega, show 8 + k < 28 by omega]

/-- The mode field is the low five bits (rule R30). -/
theorem psrWord_mode (n z c v i f t : Bool) (m : BitVec 5) :
    (psrWord n z c v i f t m).extractLsb' 0 5 = m := by
  ext k hk
  rw [BitVec.getElem_extractLsb', psrWord_getLsbD _ _ _ _ _ _ _ _ (by omega)]
  simp [hk]

/-- Every field of a status register, read from its word (rule R30). -/
theorem psrWord_layout (n z c v i f t : Bool) (m : BitVec 5) :
    let w := psrWord n z c v i f t m
    w.getLsbD 31 = n ∧ w.getLsbD 30 = z ∧ w.getLsbD 29 = c ∧ w.getLsbD 28 = v ∧
      w.extractLsb' 8 20 = 0 ∧ w.getLsbD 7 = i ∧ w.getLsbD 6 = f ∧ w.getLsbD 5 = t ∧
      w.extractLsb' 0 5 = m := by
  refine ⟨?_, ?_, ?_, ?_, psrWord_reserved .., ?_, ?_, ?_, psrWord_mode ..⟩
  all_goals exact psrWord_getLsbD _ _ _ _ _ _ _ _ (by decide)

/-- The modes have their codes, and no other code is a mode (rule R34). -/
theorem Mode.ofBits_table :
    (∀ row ∈ [(0x10#5, Mode.usr), (0x11#5, .fiq), (0x12#5, .irq), (0x13#5, .svc),
      (0x17#5, .abt), (0x1B#5, .und), (0x1F#5, .sys)],
      Mode.ofBits row.1 = some row.2 ∧ row.2.toBits = row.1) ∧
    ∀ b : BitVec 5, b ∉ [0x10#5, 0x11#5, 0x12#5, 0x13#5, 0x17#5, 0x1B#5, 0x1F#5] →
      Mode.ofBits b = none := by
  decide

/-- Settles O11: both kinds of status register are `psrWord` of their fields. -/
theorem statusLayout : Obligations.StatusLayout :=
  ⟨fun _ => psrWord_layout .., fun _ => psrWord_layout .., Mode.ofBits_table⟩

end Sys2Proof.Machine
end

section
/-!
PROOFS. The steps that execute no instruction: O52 (10_state.md rule R37, 20_memory.md rule
R68, 30_encoding.md rules R112, R114, 60_exceptions.md rule R335, 70_reset_and_hazards.md rule
R389).
-/

namespace Sys2Proof.Machine

/-! ## Words that do not decode -/

theorem Cond.ofCode_eq_none {code : BitVec 4} : Cond.ofCode code = none ↔ code = 0b1111#4 := by
  revert code
  decide

/-- A word that does not decode is refused under the name its condition field gives. -/
theorem refusalOf_decode_error {w : Word} {e : DecodeError} (h : decode w = .error e) :
    refusalOf e = if bits w 28 4 = 0b1111#4 then .cond1111 else .encodingNotInScope := by
  unfold decode at h
  split at h
  · next hcode =>
    rw [if_pos (Cond.ofCode_eq_none.mp hcode)]
    split at h
    · cases h
    · cases h; rfl
  · next c hcode =>
    rw [if_neg fun hones => by rw [Cond.ofCode_eq_none.mpr hones] at hcode; cases hcode]
    split at h
    · cases h
    · cases h; rfl

theorem executeWord_of_error {w : Word} {e : DecodeError} (s : State) (h : decode w = .error e) :
    executeWord w s = .refused (refusalOf e) := by
  rw [executeWord, h]

/-! ## The fetch -/

theorem fetch_abort {s : State} (h : s.platform.abortsAt .fetch s.pc = true) :
    fetch s = .abort := if_pos h

theorem fetch_stuck {s : State} (habort : s.platform.abortsAt .fetch s.pc = false)
    (hmap : ∃ b ∈ Width.word.addresses s.pc, s.platform.admits .fetch b = false) :
    fetch s = .stuck (.notInMemoryMap .fetch s.pc) := by
  obtain ⟨b, hb, hno⟩ := hmap
  have hall : ¬ (Width.word.addresses s.pc).all (s.platform.admits .fetch) = true := fun h => by
    simp [List.all_eq_true.mp h b hb] at hno
  rw [fetch, if_neg (by simp [habort]), if_neg hall]

theorem executeNext_of_abort {s : State} (harm : s.cpsr.t = false) (h : fetch s = .abort) :
    executeNext s = .next (takeException .prefetchAbort s) := by
  rw [executeNext, if_neg (by simp [harm]), h]

theorem executeNext_of_stuck {s : State} {f : Fault} (harm : s.cpsr.t = false)
    (h : fetch s = .stuck f) : executeNext s = .fault f := by
  rw [executeNext, if_neg (by simp [harm]), h]

theorem executeNext_of_word {s : State} {w : Word} (harm : s.cpsr.t = false)
    (h : fetch s = .word w) : executeNext s = executeWord w s := by
  rw [executeNext, if_neg (by simp [harm]), h]

/-- Settles O52: each stop is a branch of `cycle`, of `executeNext` or of the fetch. -/
theorem stepWithoutInstruction : Obligations.StepWithoutInstruction := by
  intro s
  refine ⟨fun hhalt => ?_, fun hruns habort => ?_, fun hruns habort hmap => ?_,
    fun hruns habort hmap e herror => ?_, fun hhalt hint hthumb => ?_⟩
  · rw [step, cycle, if_pos hhalt]
  · have ⟨_, _, harm⟩ := hruns
    rw [step_of_runsInstruction hruns, executeNext_of_abort harm (fetch_abort habort)]
    rfl
  · have ⟨_, _, harm⟩ := hruns
    rw [step_of_runsInstruction hruns, executeNext_of_stuck harm (fetch_stuck habort hmap)]
    rfl
  · have ⟨_, _, harm⟩ := hruns
    have hword : executeWord (s.readWord s.pc) s = .refused (refusalOf e) :=
      executeWord_of_error s herror
    rw [step_of_runsInstruction hruns, executeNext_of_word harm (fetch_word habort hmap), hword,
      refusalOf_decode_error herror]
    rfl
  · rw [step, cycle, if_neg hhalt, pendingInterrupt_eq_none hint, executeNext, if_pos hthumb]
    rfl

end Sys2Proof.Machine
end

section
/-!
PROOFS. Memory read at other widths than it was written: O45 (20_memory.md rules R64, R65, R80).
-/

namespace Sys2Proof.Machine

/-! ## The parts of what was written -/

/-- The bytes of a word written, at any address: the four do not meet, even across the top. -/
theorem State.readByte_writeWord_offset {s : State} (h : Memory.wf s.mem = true) (a v : Word)
    {k : Nat} (hk : k < 4) :
    (s.writeWord a v).readByte (a + BitVec.ofNat 32 k) = v.extractLsb' (8 * k) 8 := by
  rw [State.readByte_writeWord h]
  interval_cases k <;> simp

/-- The bytes of a halfword written. -/
theorem State.readByte_writeHalf_offset {s : State} (h : Memory.wf s.mem = true) (a : Word)
    (v : BitVec 16) {k : Nat} (hk : k < 2) :
    (s.writeHalf a v).readByte (a + BitVec.ofNat 32 k) = v.extractLsb' (8 * k) 8 := by
  rw [State.readByte_writeHalf h]
  interval_cases k <;> simp

/-- Two bytes side by side are a halfword. -/
theorem append_extract_bytes {n : Nat} (v : BitVec n) (k : Nat) :
    v.extractLsb' (k + 8) 8 ++ v.extractLsb' k 8 = v.extractLsb' k 16 :=
  BitVec.extractLsb'_append_extractLsb'_eq_extractLsb' rfl

/-- The halfwords of a word written. -/
theorem State.readHalf_writeWord_low {s : State} (h : Memory.wf s.mem = true) (a v : Word) :
    (s.writeWord a v).readHalf a = v.extractLsb' 0 16 := by
  have h0 := State.readByte_writeWord_offset h a v (k := 0) (by decide)
  have h1 := State.readByte_writeWord_offset h a v (k := 1) (by decide)
  rw [BitVec.add_zero] at h0
  rw [State.readHalf, h0]
  exact (congrArg (· ++ _) h1).trans (append_extract_bytes v 0)

theorem State.readHalf_writeWord_high {s : State} (h : Memory.wf s.mem = true) (a v : Word) :
    (s.writeWord a v).readHalf (a + 2) = v.extractLsb' 16 16 := by
  have h2 := State.readByte_writeWord_offset h a v (k := 2) (by decide)
  have h3 := State.readByte_writeWord_offset h a v (k := 3) (by decide)
  have hnext : a + 2 + 1 = a + 3 := BitVec.add_assoc a 2 1
  rw [State.readHalf, hnext]
  exact (congrArg₂ (· ++ ·) h3 h2).trans (append_extract_bytes v 16)

/-- A halfword written is the halfword read back. -/
theorem State.readHalf_writeHalf {s : State} (h : Memory.wf s.mem = true) (a : Word)
    (v : BitVec 16) : (s.writeHalf a v).readHalf a = v := by
  have h0 := State.readByte_writeHalf_offset h a v (k := 0) (by decide)
  have h1 := State.readByte_writeHalf_offset h a v (k := 1) (by decide)
  rw [BitVec.add_zero] at h0
  rw [State.readHalf, h0]
  exact (congrArg (· ++ _) h1).trans ((append_extract_bytes v 0).trans BitVec.extractLsb'_eq_self)

/-! ## Four bytes written -/

/-- The bytes of a word put together from four. -/
theorem extract_bytes_append (b0 b1 b2 b3 : Byte) :
    let w := b3 ++ b2 ++ b1 ++ b0
    w.extractLsb' 0 8 = b0 ∧ w.extractLsb' 8 8 = b1 ∧ w.extractLsb' 16 8 = b2 ∧
      w.extractLsb' 24 8 = b3 := by
  refine ⟨BitVec.extractLsb'_append_eq_right, ?_, ?_, ?_⟩
  · exact (BitVec.extractLsb'_append_eq_of_le (by decide)).trans BitVec.extractLsb'_append_eq_right
  · exact (BitVec.extractLsb'_append_eq_of_le (by decide)).trans
      ((BitVec.extractLsb'_append_eq_of_le (by decide)).trans BitVec.extractLsb'_append_eq_right)
  · exact (BitVec.extractLsb'_append_eq_of_le (by decide)).trans
      ((BitVec.extractLsb'_append_eq_of_le (by decide)).trans BitVec.extractLsb'_append_eq_left)

/-- Four bytes written one after another are a write of the word they make. -/
theorem State.writeWord_append (s : State) (a : Word) (b0 b1 b2 b3 : Byte) :
    s.writeWord a (b3 ++ b2 ++ b1 ++ b0) =
      (((s.writeByte a b0).writeByte (a + 1) b1).writeByte (a + 2) b2).writeByte (a + 3) b3 := by
  obtain ⟨h0, h1, h2, h3⟩ := extract_bytes_append b0 b1 b2 b3
  rw [State.writeWord, h0, h1, h2, h3]

/-- Settles O45: a word and a halfword by their bytes, and four bytes as the word they make. -/
theorem mixedWidths : Obligations.MixedWidths := by
  intro s a v h b0 b1 b2 b3 hwf
  refine ⟨⟨State.readWord_writeWord hwf a v, fun k => State.readByte_writeWord_offset hwf a v,
      State.readHalf_writeWord_low hwf a v, State.readHalf_writeWord_high hwf a v,
      fun b => State.readByte_storeAt_of_not_mem hwf .word a v b⟩,
    ⟨State.readHalf_writeHalf hwf a h, ?_, ?_, fun b hb => ?_⟩, fun t ht => ?_⟩
  · simpa using State.readByte_writeHalf_offset hwf a h (k := 0) (by decide)
  · exact State.readByte_writeHalf_offset hwf a h (k := 1) (by decide)
  · simp only [List.mem_cons, List.not_mem_nil, or_false, not_or] at hb
    obtain ⟨h0, h1⟩ := hb
    rw [State.readByte_writeHalf hwf, if_neg h1, if_neg h0]
  · obtain ⟨h0, h1, h2, h3⟩ := extract_bytes_append b0 b1 b2 b3
    rw [ht, ← State.writeWord_append]
    refine ⟨State.readWord_writeWord hwf a _, ?_, ?_⟩
    · rw [State.readHalf_writeWord_low hwf, ← append_extract_bytes, h0, h1]
    · rw [State.readHalf_writeWord_high hwf, ← append_extract_bytes, h2, h3]

end Sys2Proof.Machine
end

section
/-!
PROOFS. A transfer that runs, by what becomes of its access: the checks in their order (rule
R70), then the transfer made, the Data Abort, or the stop: O39, O42, O43, O44 (20_memory.md rules
R64 to R78, 46_data_transfer.md rules R292 to R307).
-/

namespace Sys2Proof.Machine

/-! ## The checks, one lemma per branch -/

section Checks

variable {k : AccessKind} {w : Width} {toPc : Bool} {a : Word} {p : Platform}

theorem checkAccess_of_aligned (h : w.aligned a = true) :
    checkAccess k w toPc a p = checkAdmission k w a p := by
  simp only [checkAccess, checkAlignment, if_pos h]

theorem checkAccess_misaligned_refuse (h : w.aligned a = false) (hp : p.misaligned = .refuse) :
    checkAccess k w toPc a p = .refused .misalignedAccess := by
  simp [checkAccess, checkAlignment, h, hp]

theorem checkAccess_misaligned_abort (h : w.aligned a = false) (hp : p.misaligned = .abort) :
    checkAccess k w toPc a p = .abort := by
  simp [checkAccess, checkAlignment, h, hp]

/-- The aligned word is what the later checks are asked about (log 14). -/
theorem checkAccess_misaligned_word (h : Width.word.aligned a = false)
    (hp : p.misaligned = .rotateOrIgnore) :
    checkAccess k .word false a p = checkAdmission k .word (a &&& 0xFFFFFFFC) p := by
  simp [checkAccess, checkAlignment, h, hp]

theorem checkAccess_misaligned_other (h : w.aligned a = false)
    (hp : p.misaligned = .rotateOrIgnore) (hw : w ≠ .word ∨ toPc = true) :
    checkAccess k w toPc a p = .refused .misalignedAccess := by
  have hno : ¬ (w = .word ∧ toPc = false) := by rcases hw with hw | hw <;> simp [hw]
  simp [checkAccess, checkAlignment, h, hp, hno]

theorem checkAdmission_abort (h : p.abortsAt k a = true) : checkAdmission k w a p = .abort :=
  if_pos h

theorem checkAdmission_text (hab : p.abortsAt k a = false) (hk : k = .write)
    (h : ∃ b ∈ w.addresses a, p.admits .fetch b = true) :
    checkAdmission k w a p = .refused .storeIntoProgramText := by
  rw [checkAdmission, if_neg (by simp [hab]), if_pos ⟨hk, List.any_eq_true.mpr h⟩]

/-- Outside the program text the map decides. -/
theorem checkAdmission_offText (hab : p.abortsAt k a = false)
    (htext : k = .write → ∀ b ∈ w.addresses a, p.admits .fetch b = false) :
    checkAdmission k w a p =
      if (w.addresses a).all (p.admits k) = true then .at a else .stuck (.notInMemoryMap k a) := by
  rw [checkAdmission, if_neg (by simp [hab]), if_neg]
  rintro ⟨hk, hany⟩
  obtain ⟨b, hb, hfetch⟩ := List.any_eq_true.mp hany
  simp [htext hk b hb] at hfetch

theorem checkAdmission_made (hab : p.abortsAt k a = false)
    (htext : k = .write → ∀ b ∈ w.addresses a, p.admits .fetch b = false)
    (hmap : ∀ b ∈ w.addresses a, p.admits k b = true) : checkAdmission k w a p = .at a := by
  rw [checkAdmission_offText hab htext, if_pos (List.all_eq_true.mpr hmap)]

theorem checkAdmission_stuck (hab : p.abortsAt k a = false)
    (htext : k = .write → ∀ b ∈ w.addresses a, p.admits .fetch b = false)
    (hmap : ∃ b ∈ w.addresses a, p.admits k b = false) :
    checkAdmission k w a p = .stuck (.notInMemoryMap k a) := by
  obtain ⟨b, hb, hno⟩ := hmap
  rw [checkAdmission_offText hab htext, if_neg]
  intro hall
  simp [List.all_eq_true.mp hall b hb] at hno

end Checks

/-! ## A transfer that runs -/

/-- What becomes of the access of a transfer (rule R70). -/
def TransferView.access (x : TransferView) (s : State) : Access :=
  checkAccess x.kind x.width (x.load && x.rd == 15) (x.address s) s.platform

/-- The transfer itself, its access made at `a`. -/
def TransferView.made (x : TransferView) (s : State) (a : Word) : Result :=
  bif x.load then finishLoad x.am x.rd (loadValue x.width x.signed s (x.address s)) s
  else advance (x.am.writeBack (x.am.offAddr s) (s.storeAt x.width a (s.readReg x.rd)))

/-- What a transfer answers, by what becomes of its access. -/
def TransferView.answer (x : TransferView) (s : State) (c : Access) : Result :=
  match c with
  | .at a => x.made s a
  | .abort => .next (dataAbort x.am s)
  | .refused r => .refused r
  | .stuck f => .fault f

theorem TransferView.kind_eq_write {x : TransferView} : x.kind = .write ↔ x.load = false := by
  cases h : x.load <;> simp [TransferView.kind, h]

section Transfer

variable {i : Instr} {x : TransferView} {s : State}

/-- With its restrictions kept and its condition passed, a transfer is decided by its access. -/
theorem exec_of_runs (hx : transferView i = some x) (hr : x.Runs s) :
    exec i s = x.answer s (x.access s) := by
  obtain ⟨hrestr, hcond⟩ := hr
  rw [exec_of_transferView hx]
  cases hload : x.load
  · rw [cond_false, store, guarded_pass hrestr hcond]
    simp only [TransferView.access, TransferView.kind, TransferView.address, hload,
      Bool.false_eq_true, if_false, Bool.false_and]
    cases checkAccess .write x.width false (x.am.addr s) s.platform with
    | abort => rfl
    | refused r => rfl
    | stuck f => rfl
    | _ => simp only [TransferView.answer, TransferView.made, hload, cond_false]
  · rw [cond_true, load, guarded_pass hrestr hcond]
    simp only [TransferView.access, TransferView.kind, TransferView.address, hload, if_true,
      Bool.true_and]
    cases checkAccess .read x.width (x.rd == 15) (x.am.addr s) s.platform with
    | abort => rfl
    | refused r => rfl
    | stuck f => rfl
    | _ =>
      simp only [TransferView.answer, TransferView.made, TransferView.address, hload, cond_true]

theorem exec_of_access (hx : transferView i = some x) (hr : x.Runs s) {c : Access}
    (hc : x.access s = c) : exec i s = x.answer s c := by
  rw [exec_of_runs hx hr, hc]

/-- Only a load may have Rd = R15 (rule R306). -/
theorem TransferView.load_of_rd_fifteen (hx : transferView i = some x) (hr : x.Runs s)
    (hrd : x.rd = 15) : x.load = true := by
  by_contra hload
  obtain ⟨hrestr, -⟩ := hr
  have hsome : x.rd15 = some .storeR15 ∨ x.rd15 = some .transferR15 :=
    rd15_of_store hx (by simpa using hload)
  unfold Addressing.restriction transferRestriction at hrestr
  simp only [hrd, if_true] at hrestr
  split_ifs at hrestr
  rcases hsome with h | h <;> simp [h] at hrestr

/-- What the alignment check asks of an Rd that is not R15. -/
theorem TransferView.access_of_rd_ne (hrd : x.rd ≠ 15) :
    x.access s = checkAccess x.kind x.width false (x.address s) s.platform := by
  have hpc : (x.rd == 15) = false := beq_false_of_ne hrd
  rw [TransferView.access, hpc, Bool.and_false]

/-! ## The Data Abort -/

/-- The entry of an exception from a state that differs in its registers only. -/
theorem entered_takeException (k : ExceptionKind) {u : State} (hpc : u.pc = s.pc)
    (hcpsr : u.cpsr = s.cpsr) (hspsr : u.spsr = s.spsr) (hmem : u.mem = s.mem)
    (hplatform : u.platform = s.platform) (hboundary : u.boundary = s.boundary) :
    Entered k s (takeException k u) u.reg := by
  obtain ⟨-, -, -, hreg, -⟩ := takeException_spec k u
  refine ⟨rfl, ?_, ?_, fun p => ?_, State.readByte_of_mem hmem, hplatform, hboundary⟩
  · rw [← hcpsr]; rfl
  · rw [← hcpsr, ← hspsr]; rfl
  · rw [hreg, hpc]
    simp only [eq_comm]

/-- The Data Abort of a transfer is the entry, with the base as it was or updated. -/
theorem abortEntered_dataAbort (hr : x.am.restriction x.rd15 x.rd = none) :
    AbortEntered x s (dataAbort x.am s) := by
  rcases dataAbort_eq x.am s with heq | ⟨hwb, heq⟩ <;> rw [heq]
  · exact .inl (entered_takeException .dataAbort rfl rfl rfl rfl rfl rfl)
  · have hbase : x.am.rn ≠ 15 := Addressing.base_ne_fifteen hr hwb
    have h := entered_takeException (s := s) .dataAbort
      (State.writeReg_pc s (x.am.offAddr s) hbase) (by simp) (by simp) (by simp) (by simp) (by simp)
    refine .inr ⟨hwb, ?_⟩
    rwa [show (s.writeReg x.am.rn (x.am.offAddr s)).reg = _ from
      funext (State.reg_writeReg s x.am.rn (x.am.offAddr s))] at h

theorem exec_abort (hx : transferView i = some x) (hr : x.Runs s) (hc : x.access s = .abort) :
    ∃ t, exec i s = .next t ∧ AbortEntered x s t :=
  have ⟨hrestr, _⟩ := hr
  ⟨dataAbort x.am s, exec_of_access hx hr hc, abortEntered_dataAbort hrestr⟩

/-! ## The stops after ABORT -/

/-- A store into the program text, then an access outside the map, at the address `a` that the
alignment check hands on (rules R68, R78). -/
theorem exec_stops (hx : transferView i = some x) (hr : x.Runs s) {w : Width} {a : Word}
    (hc : x.access s = checkAdmission x.kind w a s.platform)
    (hab : s.platform.abortsAt x.kind a = false) :
    ((x.load = false ∧ ∃ b ∈ w.addresses a, s.platform.admits .fetch b = true) →
      exec i s = .refused .storeIntoProgramText) ∧
    ((x.load = true ∨ ∀ b ∈ w.addresses a, s.platform.admits .fetch b = false) →
      (∃ b ∈ w.addresses a, s.platform.admits x.kind b = false) →
      exec i s = .fault (.notInMemoryMap x.kind a)) := by
  refine ⟨fun ⟨hload, htext⟩ => ?_, fun htext hmap => ?_⟩
  · exact exec_of_access hx hr
      (hc.trans (checkAdmission_text hab (TransferView.kind_eq_write.mpr hload) htext))
  · refine exec_of_access hx hr (hc.trans (checkAdmission_stuck hab (fun hk => ?_) hmap))
    have hload : x.load = false := TransferView.kind_eq_write.mp hk
    simpa [hload] using htext

/-! ## The transfers made -/

/-- The access is made at the address `a` that the alignment check hands on. -/
theorem exec_made (hx : transferView i = some x) (hr : x.Runs s) {w : Width} {a : Word}
    (hc : x.access s = checkAdmission x.kind w a s.platform)
    (hab : s.platform.abortsAt x.kind a = false)
    (htext : x.load = false → ∀ b ∈ w.addresses a, s.platform.admits .fetch b = false)
    (hmap : ∀ b ∈ w.addresses a, s.platform.admits x.kind b = true) :
    exec i s = x.made s a :=
  exec_of_access hx hr (hc.trans
    (checkAdmission_made hab (fun hk => htext (TransferView.kind_eq_write.mp hk)) hmap))

theorem TransferView.made_of_load (h : x.load = true) (a : Word) :
    x.made s a = finishLoad x.am x.rd (loadValue x.width x.signed s (x.address s)) s := by
  rw [TransferView.made, h, cond_true]

theorem TransferView.made_of_store (h : x.load = false) (a : Word) :
    x.made s a =
      advance (x.am.writeBack (x.am.offAddr s) (s.storeAt x.width a (s.readReg x.rd))) := by
  rw [TransferView.made, h, cond_false]

/-- Write-back and the step to the next instruction, after a transfer has left `s`. -/
theorem advance_writeBack (hbase : x.am.wb = true → x.am.rn ≠ 15) (hnext : s.HasNext) (v : Word) :
    ∃ t, advance (x.am.writeBack v s) = .next t ∧ t.pc = s.pc + 4 ∧
      (∀ p, t.reg p =
        if x.am.wb = true ∧ visible s.cpsr.mode x.am.rn = some p then v else s.reg p) ∧
      t.cpsr = s.cpsr ∧ SystemKept s t ∧ MemoryKept s t := by
  have hpc : (x.am.writeBack v s).pc = s.pc := x.am.writeBack_pc v s hbase
  refine ⟨_, advance_of_lt (by rwa [hpc]), by rw [← hpc], x.am.writeBack_reg v s,
    x.am.writeBack_cpsr v s, ⟨x.am.writeBack_spsr v s, x.am.writeBack_platform v s,
    x.am.writeBack_boundary v s⟩, x.am.writeBack_readByte v s⟩

/-- The effect of a load whose Rd is not R15, with the data it delivers: Rd, the base and the pc
(rule R292). -/
theorem finishLoad_completes (hr : x.am.restriction x.rd15 x.rd = none) (hrd : x.rd ≠ 15)
    (hnext : s.HasNext) (data : Word) :
    ∃ t, finishLoad x.am x.rd data s = .next t ∧ t.pc = s.pc + 4 ∧
      (∀ p, t.reg p = if visible s.cpsr.mode x.rd = some p then data
        else if x.am.wb = true ∧ visible s.cpsr.mode x.am.rn = some p then x.am.offAddr s
        else s.reg p) ∧
      t.cpsr = s.cpsr ∧ SystemKept s t ∧ MemoryKept s t := by
  have hpc : (s.writeReg x.rd data).pc = s.pc := State.writeReg_pc s data hrd
  obtain ⟨t, ht, htpc, hreg, hcpsr, hsys, hmem⟩ := advance_writeBack (s := s.writeReg x.rd data)
    (Addressing.base_ne_fifteen hr) (by rwa [State.HasNext, hpc]) (x.am.offAddr s)
  simp only [SystemKept, MemoryKept, State.writeReg_cpsr, State.writeReg_spsr,
    State.writeReg_platform, State.writeReg_boundary, State.writeReg_readByte,
    State.reg_writeReg, hpc] at htpc hreg hcpsr hsys hmem
  refine ⟨t, (if_neg hrd).trans ht, htpc, fun p => ?_, hcpsr, hsys, hmem⟩
  rw [hreg]
  by_cases hp : visible s.cpsr.mode x.rd = some p
  · have hbase : ¬ (x.am.wb = true ∧ visible s.cpsr.mode x.am.rn = some p) := fun ⟨hwb, hn⟩ =>
      Addressing.base_ne_rd hr hwb (visible_inj hrd (hp.trans hn.symm)).symm
    rw [if_neg hbase, if_pos hp, if_pos hp]
  · simp only [if_neg hp]

/-- The effect of a store made at `a`: the bytes of the access, the base and the pc (rule R292). -/
theorem storeAt_completes (hr : x.am.restriction x.rd15 x.rd = none) (hnext : s.HasNext)
    (w : Width) (a v : Word) :
    ∃ t, advance (x.am.writeBack (x.am.offAddr s) (s.storeAt w a v)) = .next t ∧
      t.pc = s.pc + 4 ∧
      (∀ p, t.reg p = if x.am.wb = true ∧ visible s.cpsr.mode x.am.rn = some p then
          x.am.offAddr s else s.reg p) ∧
      t.cpsr = s.cpsr ∧ SystemKept s t ∧ MemoryKept (s.storeAt w a v) t := by
  obtain ⟨t, ht, htpc, hreg, hcpsr, hsys, hmem⟩ := advance_writeBack (s := s.storeAt w a v)
    (Addressing.base_ne_fifteen hr) (by rwa [State.HasNext, State.storeAt_pc]) (x.am.offAddr s)
  simp only [SystemKept, State.storeAt_pc, State.storeAt_cpsr, State.storeAt_spsr,
    State.storeAt_platform, State.storeAt_boundary, State.storeAt_reg] at htpc hreg hcpsr hsys
  exact ⟨t, ht, htpc, hreg, hcpsr, hsys, hmem⟩

/-- The bytes a store leaves are the low bytes of its register (rule R64). -/
theorem State.readByte_storeAt_offset (h : Memory.wf s.mem = true) (w : Width) (a v : Word)
    {k : Nat} (hk : k < w.bytes) :
    (s.storeAt w a v).readByte (a + BitVec.ofNat 32 k) = v.extractLsb' (8 * k) 8 := by
  cases w with
  | byte =>
    obtain rfl : k = 0 := Nat.lt_one_iff.mp hk
    simp [State.storeAt, State.readByte_writeByte h]
  | half =>
    have hk2 : k < 2 := hk
    rw [State.storeAt, State.readByte_writeHalf_offset h a _ hk2,
      BitVec.extractLsb'_extractLsb'_of_le (by omega)]
  | word => exact State.readByte_writeWord_offset h a v hk

/-! ## Misaligned words under `rotateOrIgnore` -/

theorem TransferView.access_of_misaligned_word (hw : x.width = .word) (hrd : x.rd ≠ 15)
    (hpolicy : s.platform.misaligned = .rotateOrIgnore)
    (hal : x.width.aligned (x.address s) = false) :
    x.access s = checkAdmission x.kind .word (x.address s &&& 0xFFFFFFFC) s.platform := by
  rw [access_of_rd_ne hrd, hw]
  exact checkAccess_misaligned_word (hw ▸ hal) hpolicy

/-- A halfword, and a word to R15, have no misaligned form. -/
theorem TransferView.access_of_misaligned_other (hx : transferView i = some x) (hr : x.Runs s)
    (hpolicy : s.platform.misaligned = .rotateOrIgnore)
    (hal : x.width.aligned (x.address s) = false) (h : x.width ≠ .word ∨ x.rd = 15) :
    x.access s = .refused .misalignedAccess :=
  checkAccess_misaligned_other hal hpolicy
    (h.imp_right fun hrd => by rw [load_of_rd_fifteen hx hr hrd, hrd]; rfl)

/-- The word a misaligned load delivers under `rotateOrIgnore` (rule R66). -/
theorem loadValue_word (signed : Bool) (a : Word) :
    loadValue .word signed s a =
      (loaded .word false (a &&& 0xFFFFFFFC) s).rotateRight (8 * (a.toNat % 4)) := by
  have hlow : (a.extractLsb' 0 2).toNat = a.toNat % 4 := BitVec.extractLsb'_toNat 0 2 a
  rw [loadValue, State.loadWord, hlow]
  rfl

end Transfer

/-! ## The statements -/

/-- Settles O39: the access is made, and the store has the effect of `storeAt_completes`. -/
theorem storeEffect : Obligations.StoreEffect := by
  intro i x s hx hload hr hadm hnext hwf
  have ⟨hrestr, _⟩ := hr
  obtain ⟨t, ht, hpc, hreg, hcpsr, hsys, hmem⟩ :=
    storeAt_completes hrestr hnext x.width (x.address s) (s.readReg x.rd)
  obtain ⟨hal, hab, htext, hmap⟩ := hadm
  have hexec : exec i s = x.made s (x.address s) :=
    exec_made hx hr (checkAccess_of_aligned hal) hab htext hmap
  refine ⟨t, hexec.trans ((TransferView.made_of_store hload _).trans ht), hpc, fun k hk => ?_,
    fun b hb => ?_, hreg, hcpsr, hsys⟩
  · rw [hmem, State.readByte_storeAt_offset hwf x.width _ _ hk]
  · rw [hmem, State.readByte_storeAt_of_not_mem hwf _ _ _ _ hb]

/-- Settles O42: both ways to an abort end in `dataAbort`. -/
theorem transferAbort : Obligations.TransferAbort := by
  intro i x s hx hr habort
  refine exec_abort hx hr ?_
  rcases habort with ⟨hal, hab⟩ | ⟨hal, hpolicy⟩
  · exact (checkAccess_of_aligned hal).trans (checkAdmission_abort hab)
  · exact checkAccess_misaligned_abort hal hpolicy

/-- Settles O43: the alignment check, then the checks of `exec_stops`. -/
theorem transferStops : Obligations.TransferStops := by
  intro i x s hx hr
  refine ⟨fun hal hpolicy => ?_, fun hal hab => ?_⟩
  · exact exec_of_access hx hr (checkAccess_misaligned_refuse hal hpolicy)
  · exact exec_stops hx hr (checkAccess_of_aligned hal) hab

/-- Settles O44: a word access is that of O39, O42 and O43 at the aligned word, where a load
rotates what it reads. -/
theorem misalignedRotate : Obligations.MisalignedRotate := by
  intro i x s hx hr hpolicy hal a word bytes
  have ⟨hrestr, _⟩ := hr
  have haccess (hw : x.width = .word) (hrd : x.rd ≠ 15) :
      x.access s = checkAdmission x.kind .word word s.platform :=
    TransferView.access_of_misaligned_word hw hrd hpolicy hal
  refine ⟨fun h => ?_, fun hw hrd hab => ?_, fun hw hrd hab => ?_⟩
  · exact exec_of_access hx hr (TransferView.access_of_misaligned_other hx hr hpolicy hal h)
  · exact exec_abort hx hr ((haccess hw hrd).trans (checkAdmission_abort hab))
  · obtain ⟨htext, hstuck⟩ := exec_stops hx hr (haccess hw hrd) hab
    refine ⟨fun hload hb => htext ⟨hload, hb⟩, hstuck, fun hnext hwf hmap =>
      ⟨fun hload => ?_, fun hload hoff => ?_⟩⟩
    · have hexec : exec i s = x.made s word :=
        exec_made hx hr (haccess hw hrd) hab (fun h => by simp [hload] at h) hmap
      rw [hexec, TransferView.made_of_load hload, hw, loadValue_word]
      exact finishLoad_completes hrestr hrd hnext _
    · have hexec : exec i s = x.made s word :=
        exec_made hx hr (haccess hw hrd) hab (fun _ => hoff) hmap
      rw [hexec, TransferView.made_of_store hload, hw]
      obtain ⟨t, ht, hpc, hreg, hcpsr, hsys, hmem⟩ :=
        storeAt_completes hrestr hnext .word word (s.readReg x.rd)
      refine ⟨t, ht, hpc, ?_, fun b hb => ?_, hreg, hcpsr, hsys⟩
      · simp only [loaded, hmem _]
        exact State.readWord_writeWord hwf word _
      · rw [hmem, State.readByte_storeAt_of_not_mem hwf _ _ _ _ hb]

end Sys2Proof.Machine
end

section
/-!
PROOFS. The decoder of data processing by the shape of the instruction (30_encoding.md rules
R93 to R97).
-/

namespace Sys2Proof

/-! ## Fields that become names, and back -/

/-- The code of an operation (rule R96). -/
def DpOp.code (op : DpOp) : BitVec 4 :=
  match op with
  | .and => 0b0000#4 | .eor => 0b0001#4 | .sub => 0b0010#4 | .rsb => 0b0011#4
  | .add => 0b0100#4 | .adc => 0b0101#4 | .sbc => 0b0110#4 | .rsc => 0b0111#4
  | .tst => 0b1000#4 | .teq => 0b1001#4 | .cmp => 0b1010#4 | .cmn => 0b1011#4
  | .orr => 0b1100#4 | .mov => 0b1101#4 | .bic => 0b1110#4 | .mvn => 0b1111#4

theorem DpOp.ofCode_code (op : DpOp) : DpOp.ofCode op.code = op := by cases op <;> rfl

theorem DpOp.code_ofCode (code : BitVec 4) : (DpOp.ofCode code).code = code := by
  revert code; decide

theorem ShiftType.code_ofCode (code : BitVec 2) : (ShiftType.ofCode code).code = code := by
  revert code; decide

theorem PsrSel.toBit_ofBit (r : Bool) : (PsrSel.ofBit r).toBit = r := by cases r <;> rfl

theorem Cond.code_of_ofCode {code : BitVec 4} {c : Cond} (h : Cond.ofCode code = some c) :
    c.code = code := by
  revert code c; decide

/-! ## A part of a field -/

theorem bits_of_bits {w : Word} {lo len k n : Nat} {v : BitVec len} (h : bits w lo len = v)
    (hk : k + n ≤ len) : bits w (lo + k) n = v.extractLsb' k n := by
  subst h
  ext j hj
  have hlt : k + j < len := by omega
  simp [bits, hlt, Nat.add_assoc]

theorem bit_of_bits {w : Word} {lo len k : Nat} {v : BitVec len} (h : bits w lo len = v)
    (hk : k < len) : bit w (lo + k) = v.getLsbD k := by
  subst h
  simp [bits, bit, hk]

end Sys2Proof

namespace Sys2Proof.Machine

/-! ## The data-processing instruction of given fields -/

/-- The decoder of the Operand2 of `d`, on the fields of `d`. -/
def DpView.decoded (d : DpView) : Option Instr :=
  match d.operand with
  | .imm rotate imm8 => decodeDpImm d.c d.op d.sf d.rn d.rd rotate imm8
  | .shiftImm shiftImm sh rm => decodeDpShiftImm d.c d.op d.sf d.rn d.rd shiftImm sh rm
  | .shiftReg rs sh rm => decodeDpShiftReg d.c d.op d.sf d.rn d.rd rs sh rm

/-- The format of the Operand2 of `d`, with the fields of `d`. -/
def DpView.word (d : DpView) : Word :=
  match d.operand with
  | .imm rotate imm8 => encDpImm d.c d.op.code d.sf d.rn d.rd rotate imm8
  | .shiftImm shiftImm sh rm => encDpShiftImm d.c d.op.code d.sf d.rn d.rd shiftImm sh rm
  | .shiftReg rs sh rm => encDpShiftReg d.c d.op.code d.sf d.rn d.rd rs sh rm

/-- MOV and MVN, the operations with no first operand (rule R200). -/
def isMove (op : DpOp) : Bool :=
  match op with
  | .mov | .mvn => true
  | _ => false

/-- The fields an operation does not have hold what rule R97 says. -/
def DpView.Canonical (d : DpView) : Prop :=
  (isCompare d.op = true → d.sf = true ∧ d.rd = 0) ∧ (isMove d.op = true → d.rn = 0)

theorem encode_of_dpView {i : Instr} {d : DpView} (h : dpView i = some d) : encode i = d.word := by
  cases i <;> cases h <;> rfl

theorem decoded_of_dpView {i : Instr} {d : DpView} (h : dpView i = some d) :
    d.decoded = some i := by
  cases i <;> cases h <;> rfl

theorem canonical_of_dpView {i : Instr} {d : DpView} (h : dpView i = some d) : d.Canonical := by
  cases i <;> cases h <;> simp [DpView.Canonical, isCompare, isMove]

/-- The decoder answers the instruction whose fields it is given: it checks no field,
or Rn, or S and Rd. -/
theorem dpView_of_decoded {i : Instr} {d : DpView} (h : d.decoded = some i) :
    dpView i = some d := by
  obtain ⟨op, c, sf, rn, rd, operand⟩ := d
  cases operand <;> cases op <;>
    simp only [DpView.decoded, decodeDpImm, decodeDpShiftImm, decodeDpShiftReg,
      Option.ite_none_right_eq_some, Option.some.injEq] at h <;>
    first
      | (subst h; rfl)
      | (obtain ⟨rfl, rfl⟩ := h; rfl)
      | (obtain ⟨⟨rfl, rfl⟩, rfl⟩ := h; rfl)

theorem exists_decoded_iff {d : DpView} : (∃ i, d.decoded = some i) ↔ d.Canonical := by
  constructor
  · rintro ⟨i, h⟩
    exact canonical_of_dpView (dpView_of_decoded h)
  · rintro ⟨hcompare, hmove⟩
    obtain ⟨op, c, sf, rn, rd, operand⟩ := d
    cases operand <;> cases op <;>
      simp_all [DpView.decoded, decodeDpImm, decodeDpShiftImm, decodeDpShiftReg, isCompare, isMove]

/-- The data-processing instruction in the fields of a word, with the Operand2 given. -/
def dpRead (c : Cond) (w : Word) (operand : Operand2) : DpView :=
  ⟨.ofCode (bits w 21 4), c, bit w 20, bits w 16 4, bits w 12 4, operand⟩

/-- The operations 10xx are the comparisons. -/
theorem isCompare_ofCode (code : BitVec 4) :
    isCompare (.ofCode code) = true ↔ code.extractLsb' 2 2 = 0b10#2 := by
  revert code; decide

theorem isMisc_iff {w : Word} : isMisc w = true ↔ bits w 23 2 = 0b10#2 ∧ bit w 20 = false := by
  simp [isMisc]

/-- A comparison sets S, so the word of a data-processing instruction is none of the
miscellaneous space. -/
theorem isMisc_of_decoded {c : Cond} {w : Word} {operand : Operand2} {i : Instr}
    (h : (dpRead c w operand).decoded = some i) : isMisc w = false := by
  obtain ⟨hcompare, -⟩ := exists_decoded_iff.mp ⟨i, h⟩
  have hcode : (bits w 21 4).extractLsb' 2 2 = bits w 23 2 := (bits_of_bits rfl (by decide)).symm
  rw [dpRead, isCompare_ofCode, hcode] at hcompare
  rw [← Bool.not_eq_true, isMisc_iff]
  rintro ⟨hhigh, hs⟩
  obtain ⟨hset, -⟩ := hcompare hhigh
  exact Bool.false_ne_true (hs.symm.trans hset)

end Sys2Proof.Machine
end

section
/-!
PROOFS. The decoder said once: which fields make a word the word of which instruction
(30_encoding.md rules R92, R110).
-/

namespace Sys2Proof.Machine

/-- What the decoder reads from a word with condition `c`, one rule for each format. -/
inductive Reads (c : Cond) (w : Word) : Instr → Prop
  | dpImm {i} (hclass : bits w 25 3 = 0b001#3)
      (h : (dpRead c w (.imm (bits w 8 4) (bits w 0 8))).decoded = some i) : Reads c w i
  | dpShiftImm {i} (hclass : bits w 25 3 = 0b000#3) (h4 : bit w 4 = false)
      (h : (dpRead c w (.shiftImm (bits w 7 5) (.ofCode (bits w 5 2)) (bits w 0 4))).decoded =
        some i) : Reads c w i
  | dpShiftReg {i} (hclass : bits w 25 3 = 0b000#3) (h4 : bit w 4 = true) (h7 : bit w 7 = false)
      (h : (dpRead c w (.shiftReg (bits w 8 4) (.ofCode (bits w 5 2)) (bits w 0 4))).decoded =
        some i) : Reads c w i
  | multiply {i} (hclass : bits w 25 3 = 0b000#3) (h4 : bit w 4 = true) (h7 : bit w 7 = true)
      (h5 : bits w 5 2 = 0b00#2) (h24 : bit w 24 = false)
      (h : decodeMultiply c (bits w 21 3) (bit w 20) (bits w 16 4) (bits w 12 4) (bits w 8 4)
        (bits w 0 4) = some i) : Reads c w i
  | half {i op} (hclass : bits w 25 3 = 0b000#3) (h4 : bit w 4 = true) (h7 : bit w 7 = true)
      (hop : HalfOp.ofBits (bit w 20) (bits w 5 2) = some op)
      (h : decodeHalf c (bit w 24) (bit w 23) (bit w 22) (bit w 21) op (bits w 16 4)
        (bits w 12 4) (bits w 8 4) (bits w 0 4) = some i) : Reads c w i
  | mrs (hclass : bits w 25 3 = 0b000#3) (h23 : bits w 23 2 = 0b10#2) (h21 : bit w 21 = false)
      (h20 : bit w 20 = false) (h16 : bits w 16 4 = 0b1111#4) (h0 : bits w 0 12 = 0#12) :
      Reads c w (.mrs c (.ofBit (bit w 22)) (bits w 12 4))
  | msrReg (hclass : bits w 25 3 = 0b000#3) (h23 : bits w 23 2 = 0b10#2) (h21 : bit w 21 = true)
      (h20 : bit w 20 = false) (h12 : bits w 12 4 = 0b1111#4) (hsbz : bits w 4 8 = 0#8) :
      Reads c w (.msrReg c (.ofBit (bit w 22)) (bits w 16 4) (bits w 0 4))
  | msrImm (hclass : bits w 25 3 = 0b001#3) (h23 : bits w 23 2 = 0b10#2) (h21 : bit w 21 = true)
      (h20 : bit w 20 = false) (h12 : bits w 12 4 = 0b1111#4) :
      Reads c w (.msrImm c (.ofBit (bit w 22)) (bits w 16 4) (bits w 8 4) (bits w 0 8))
  | bx (h20 : bits w 20 8 = 0b00010010#8) (h8 : bits w 8 12 = 0b111111111111#12)
      (h4 : bits w 4 4 = 0b0001#4) : Reads c w (.bx c (bits w 0 4))
  | blxReg (h20 : bits w 20 8 = 0b00010010#8) (h8 : bits w 8 12 = 0b111111111111#12)
      (h4 : bits w 4 4 = 0b0011#4) : Reads c w (.blxReg c (bits w 0 4))
  | lsImm (hclass : bits w 25 3 = 0b010#3) :
      Reads c w (decodeLsImm c (bit w 24) (bit w 23) (.ofBits (bit w 22) (bit w 20)) (bit w 21)
        (bits w 16 4) (bits w 12 4) (bits w 0 12))
  | lsReg (hclass : bits w 25 3 = 0b011#3) (h4 : bit w 4 = false) :
      Reads c w (decodeLsReg c (bit w 24) (bit w 23) (.ofBits (bit w 22) (bit w 20)) (bit w 21)
        (bits w 16 4) (bits w 12 4) (bits w 7 5) (.ofCode (bits w 5 2)) (bits w 0 4))
  | undefined (hclass : bits w 25 3 = 0b011#3) (h4 : bit w 4 = true) :
      Reads c w (.undefined c (bits w 5 20) (bits w 0 4))
  | b (hclass : bits w 25 3 = 0b101#3) (h24 : bit w 24 = false) : Reads c w (.b c (bits w 0 24))
  | bl (hclass : bits w 25 3 = 0b101#3) (h24 : bit w 24 = true) : Reads c w (.bl c (bits w 0 24))

variable {c : Cond} {w : Word} {i : Instr}

/-! ## Class by class -/

theorem decodeClass_eq000 (h : bits w 25 3 = 0b000#3) : decodeClass c w = decodeClass000 c w := by
  rw [decodeClass, h]; rfl

theorem decodeClass_eq001 (h : bits w 25 3 = 0b001#3) : decodeClass c w = decodeClass001 c w := by
  rw [decodeClass, h]; rfl

/-- The words with bits 27:20 = 00010010, bit 7 = 0 and bit 4 = 1 are the exchanges (rule R101). -/
theorem decodeClass_eq_decodeBx (h20 : bits w 20 8 = 0b00010010#8) (h4 : bit w 4 = true)
    (h7 : bit w 7 = false) : decodeClass c w = decodeBx c w := by
  have hclass : bits w 25 3 = 0b000#3 := bits_of_bits h20 (k := 5) (by decide)
  have h23 : bits w 23 2 = 0b10#2 := bits_of_bits h20 (k := 3) (by decide)
  have hs : bit w 20 = false := bit_of_bits h20 (k := 0) (by decide)
  rw [decodeClass_eq000 hclass, decodeClass000, h4, h7, isMisc_iff.mpr ⟨h23, hs⟩]
  rfl

/-- Each rule of `Reads` is what the decoder does. -/
theorem Reads.decodeClass_eq (h : Reads c w i) : decodeClass c w = some i := by
  cases h with
  | dpImm hclass h =>
    rw [decodeClass_eq001 hclass, decodeClass001, isMisc_of_decoded h]
    exact h
  | dpShiftImm hclass h4 h =>
    rw [decodeClass_eq000 hclass, decodeClass000, h4, isMisc_of_decoded h]
    exact h
  | dpShiftReg hclass h4 h7 h =>
    rw [decodeClass_eq000 hclass, decodeClass000, h4, h7, isMisc_of_decoded h]
    exact h
  | multiply hclass h4 h7 h5 h24 h =>
    rw [decodeClass_eq000 hclass, decodeClass000, h4, h7, h5, h24]
    exact h
  | half hclass h4 h7 hop h =>
    have h5 : bits w 5 2 ≠ 0 := by
      intro h5
      rw [h5] at hop
      cases hl : bit w 20 <;> rw [hl] at hop <;> cases hop
    rw [decodeClass_eq000 hclass, decodeClass000, h4, h7, if_neg h5, hop]
    exact h
  | mrs hclass h23 h21 h20 h16 h0 =>
    have h4 : bit w 4 = false := bit_of_bits h0 (k := 4) (by decide)
    rw [decodeClass_eq000 hclass, decodeClass000, h4, isMisc_iff.mpr ⟨h23, h20⟩, decodePsrReg, h21,
      h16, h0]
    rfl
  | msrReg hclass h23 h21 h20 h12 hsbz =>
    have h4 : bit w 4 = false := bit_of_bits hsbz (k := 0) (by decide)
    rw [decodeClass_eq000 hclass, decodeClass000, h4, isMisc_iff.mpr ⟨h23, h20⟩, decodePsrReg, h21,
      h12, hsbz]
    rfl
  | msrImm hclass h23 h21 h20 h12 =>
    rw [decodeClass_eq001 hclass, decodeClass001, isMisc_iff.mpr ⟨h23, h20⟩, h21, h12]
    rfl
  | bx h20 h8 h4 =>
    have hb4 : bit w 4 = true := bit_of_bits h4 (k := 0) (by decide)
    have hb7 : bit w 7 = false := bit_of_bits h4 (k := 3) (by decide)
    rw [decodeClass_eq_decodeBx h20 hb4 hb7, decodeBx, h20, h8, h4]
    rfl
  | blxReg h20 h8 h4 =>
    have hb4 : bit w 4 = true := bit_of_bits h4 (k := 0) (by decide)
    have hb7 : bit w 7 = false := bit_of_bits h4 (k := 3) (by decide)
    rw [decodeClass_eq_decodeBx h20 hb4 hb7, decodeBx, h20, h8, h4]
    rfl
  | lsImm hclass => rw [decodeClass, hclass]; rfl
  | lsReg hclass h4 => rw [decodeClass, hclass, h4]; rfl
  | undefined hclass h4 => rw [decodeClass, hclass, h4]; rfl
  | b hclass h24 => rw [decodeClass, hclass, h24]; rfl
  | bl hclass h24 => rw [decodeClass, hclass, h24]; rfl


theorem Reads.of_decodePsrReg (hclass : bits w 25 3 = 0b000#3) (hmisc : isMisc w = true)
    (h : decodePsrReg c w = some i) : Reads c w i := by
  obtain ⟨h23, h20⟩ := isMisc_iff.mp hmisc
  unfold decodePsrReg at h
  split at h <;> simp only [Option.ite_none_right_eq_some, Option.some.injEq] at h
  · next h21 =>
    obtain ⟨⟨h16, h0⟩, rfl⟩ := h
    exact .mrs hclass h23 h21 h20 h16 h0
  · next h21 =>
    obtain ⟨⟨h12, hsbz⟩, rfl⟩ := h
    exact .msrReg hclass h23 (by simpa using h21) h20 h12 hsbz

theorem Reads.of_decodeBx (h : decodeBx c w = some i) : Reads c w i := by
  unfold decodeBx at h
  simp only [Option.ite_none_right_eq_some] at h
  obtain ⟨⟨h20, h8⟩, h⟩ := h
  split at h
  · next h4 =>
    cases h
    exact .bx h20 h8 h4
  · simp only [Option.ite_none_right_eq_some, Option.some.injEq] at h
    obtain ⟨h4, rfl⟩ := h
    exact .blxReg h20 h8 h4

theorem Reads.of_decodeClass000 (hclass : bits w 25 3 = 0b000#3)
    (h : decodeClass000 c w = some i) : Reads c w i := by
  unfold decodeClass000 at h
  split at h
  · next h4 =>
    split at h
    · next hmisc => exact .of_decodePsrReg hclass hmisc h
    · exact .dpShiftImm hclass h4 h
  · next h4 =>
    rw [Bool.not_eq_false] at h4
    split at h
    · next h7 =>
      split at h
      · exact .of_decodeBx h
      · exact .dpShiftReg hclass h4 h7 h
    · next h7 =>
      rw [Bool.not_eq_false] at h7
      split at h
      · next h5 =>
        rw [Option.ite_none_right_eq_some] at h
        obtain ⟨h24, h⟩ := h
        exact .multiply hclass h4 h7 h5 h24 h
      · split at h
        · next hop => exact .half hclass h4 h7 hop h
        · cases h

theorem Reads.of_decodeClass001 (hclass : bits w 25 3 = 0b001#3)
    (h : decodeClass001 c w = some i) : Reads c w i := by
  unfold decodeClass001 at h
  split at h
  · next hmisc =>
    obtain ⟨h23, h20⟩ := isMisc_iff.mp hmisc
    simp only [Option.ite_none_right_eq_some, Option.some.injEq] at h
    obtain ⟨⟨h21, h12⟩, rfl⟩ := h
    exact .msrImm hclass h23 h21 h20 h12
  · exact .dpImm hclass h

/-- The decoder does nothing else. -/
theorem Reads.of_decodeClass (h : decodeClass c w = some i) : Reads c w i := by
  unfold decodeClass at h
  split at h
  case h_1 hclass => exact .of_decodeClass000 (BitVec.eq_of_toNat_eq hclass) h
  case h_2 hclass => exact .of_decodeClass001 (BitVec.eq_of_toNat_eq hclass) h
  case h_3 hclass =>
    cases h
    exact .lsImm (BitVec.eq_of_toNat_eq hclass)
  case h_4 hclass =>
    split at h <;> cases h
    · next h4 => exact .undefined (BitVec.eq_of_toNat_eq hclass) h4
    · next h4 => exact .lsReg (BitVec.eq_of_toNat_eq hclass) (by simpa using h4)
  case h_5 hclass =>
    split at h <;> cases h
    · next h24 => exact .bl (BitVec.eq_of_toNat_eq hclass) h24
    · next h24 => exact .b (BitVec.eq_of_toNat_eq hclass) (by simpa using h24)
  case h_6 => cases h

/-- The decoder, for a word with a condition. -/
theorem decode_eq_ok_iff (hc : Cond.ofCode (bits w 28 4) = some c) :
    decode w = .ok i ↔ Reads c w i := by
  have hdecode : decode w = .ok i ↔ decodeClass c w = some i := by
    simp only [decode, hc]
    cases decodeClass c w <;> simp
  exact hdecode.trans ⟨.of_decodeClass, Reads.decodeClass_eq⟩

end Sys2Proof.Machine
end

section
/-!
PROOFS. The word of an instruction reads as the instruction: O1 (30_encoding.md rules R93 to
R107, R110, R113).
-/

namespace Sys2Proof.Machine

theorem Reads.decode_eq {c : Cond} {w : Word} {i : Instr} (hc : bits w 28 4 = c.code)
    (h : Reads c w i) : decode w = .ok i :=
  (decode_eq_ok_iff (by rw [hc, Cond.ofCode_code])).mpr h

variable (c : Cond)

/-! ## Data processing, by its shape -/

theorem decode_word_of_decoded {d : DpView} {i : Instr} (h : d.decoded = some i) :
    decode d.word = .ok i := by
  obtain ⟨op, c, sf, rn, rd, operand⟩ := d
  cases operand with
  | imm rotate imm8 =>
    obtain ⟨hc, hclass, -, hop, hs, hrn, hrd, hrot, himm⟩ :=
      encDpImm_fields c op.code sf rn rd rotate imm8
    exact (Reads.dpImm hclass (by
      rwa [dpRead, hop, hs, hrn, hrd, hrot, himm, DpOp.ofCode_code])).decode_eq hc
  | shiftImm shiftImm sh rm =>
    obtain ⟨hc, hclass, -, hop, hs, hrn, hrd, himm, hsh, h4, hrm⟩ :=
      encDpShiftImm_fields c op.code sf rn rd shiftImm sh rm
    exact (Reads.dpShiftImm hclass h4 (by
      rwa [dpRead, hop, hs, hrn, hrd, himm, hsh, hrm, DpOp.ofCode_code,
        ShiftType.ofCode_code])).decode_eq hc
  | shiftReg rs sh rm =>
    obtain ⟨hc, hclass, -, hop, hs, hrn, hrd, hrs, h7, hsh, h4, hrm⟩ :=
      encDpShiftReg_fields c op.code sf rn rd rs sh rm
    exact (Reads.dpShiftReg hclass h4 h7 (by
      rwa [dpRead, hop, hs, hrn, hrd, hrs, hsh, hrm, DpOp.ofCode_code,
        ShiftType.ofCode_code])).decode_eq hc

theorem decode_of_dpView {i : Instr} {d : DpView} (h : dpView i = some d) :
    decode (encode i) = .ok i := by
  rw [encode_of_dpView h]
  exact decode_word_of_decoded (decoded_of_dpView h)

/-! ## The other formats -/

theorem decode_encMul {code : BitVec 3} {sf : Bool} {hi lo rs rm : Reg} {i : Instr}
    (h : decodeMultiply c code sf hi lo rs rm = some i) :
    decode (encMul c code sf hi lo rs rm) = .ok i := by
  obtain ⟨hc, hclass, h24, hcode, hs, hhi, hlo, hrs, h7, h5, h4, hrm⟩ :=
    encMul_fields c code sf hi lo rs rm
  exact (Reads.multiply hclass h4 h7 h5 h24 (by rwa [hcode, hs, hhi, hlo, hrs, hrm])).decode_eq hc

theorem decode_encHalf {p u imm w l : Bool} {op : HalfOp} {rn rd : Reg} {immH immL : BitVec 4}
    {sh : BitVec 2} {i : Instr} (hop : HalfOp.ofBits l sh = some op)
    (h : decodeHalf c p u imm w op rn rd immH immL = some i) :
    decode (encHalf c p u imm w l rn rd immH sh immL) = .ok i := by
  obtain ⟨hc, hclass, hp, hu, himm, hw, hl, hrn, hrd, hH, h7, hsh, h4, hL⟩ :=
    encHalf_fields c p u imm w l rn rd immH sh immL
  exact (Reads.half hclass h4 h7 (by rwa [hl, hsh])
    (by rwa [hp, hu, himm, hw, hrn, hrd, hH, hL])).decode_eq hc

theorem decode_encLsImm (p u b w l : Bool) (rn rd : Reg) (imm12 : BitVec 12) :
    decode (encLsImm c p u b w l rn rd imm12) =
      .ok (decodeLsImm c p u (.ofBits b l) w rn rd imm12) := by
  obtain ⟨hc, hclass, hp, hu, hb, hw, hl, hrn, hrd, himm⟩ :=
    encLsImm_fields c p u b w l rn rd imm12
  have h := (Reads.lsImm hclass).decode_eq hc
  rwa [hp, hu, hb, hw, hl, hrn, hrd, himm] at h

theorem decode_encLsReg (p u b w l : Bool) (rn rd : Reg) (shiftImm : BitVec 5) (sh : ShiftType)
    (rm : Reg) : decode (encLsReg c p u b w l rn rd shiftImm sh rm) =
      .ok (decodeLsReg c p u (.ofBits b l) w rn rd shiftImm sh rm) := by
  obtain ⟨hc, hclass, hp, hu, hb, hw, hl, hrn, hrd, himm, hsh, h4, hrm⟩ :=
    encLsReg_fields c p u b w l rn rd shiftImm sh rm
  have h := (Reads.lsReg hclass h4).decode_eq hc
  rwa [hp, hu, hb, hw, hl, hrn, hrd, himm, hsh, hrm, ShiftType.ofCode_code] at h

theorem decode_encMrs (psr : PsrSel) (rd : Reg) :
    decode (encMrs c psr rd) = .ok (.mrs c psr rd) := by
  obtain ⟨hc, hclass, h23, hpsr, h21, h20, h16, hrd, h0, -⟩ := encMrs_fields c psr rd
  have h := (Reads.mrs hclass h23 h21 h20 h16 h0).decode_eq hc
  rwa [hpsr, hrd, PsrSel.ofBit_toBit] at h

theorem decode_encMsrReg (psr : PsrSel) (mask : BitVec 4) (rm : Reg) :
    decode (encMsrReg c psr mask rm) = .ok (.msrReg c psr mask rm) := by
  obtain ⟨hc, hclass, h23, hpsr, h21, h20, hmask, h12, hsbz, -, hrm⟩ :=
    encMsrReg_fields c psr mask rm
  have h := (Reads.msrReg hclass h23 h21 h20 h12 hsbz).decode_eq hc
  rwa [hpsr, hmask, hrm, PsrSel.ofBit_toBit] at h

theorem decode_encMsrImm (psr : PsrSel) (mask rotate : BitVec 4) (imm8 : BitVec 8) :
    decode (encMsrImm c psr mask rotate imm8) = .ok (.msrImm c psr mask rotate imm8) := by
  obtain ⟨hc, hclass, h23, hpsr, h21, h20, hmask, h12, hrot, himm⟩ :=
    encMsrImm_fields c psr mask rotate imm8
  have h := (Reads.msrImm hclass h23 h21 h20 h12).decode_eq hc
  rwa [hpsr, hmask, hrot, himm, PsrSel.ofBit_toBit] at h

theorem decode_encBx_bx (rm : Reg) : decode (encBx c 0b0001#4 rm) = .ok (.bx c rm) := by
  obtain ⟨hc, -, -, -, h20, h8, -, h4, -, hrm⟩ := encBx_fields c 0b0001#4 rm
  have h := (Reads.bx h20 h8 h4).decode_eq hc
  rwa [hrm] at h

theorem decode_encBx_blxReg (rm : Reg) : decode (encBx c 0b0011#4 rm) = .ok (.blxReg c rm) := by
  obtain ⟨hc, -, -, -, h20, h8, -, h4, -, hrm⟩ := encBx_fields c 0b0011#4 rm
  have h := (Reads.blxReg h20 h8 h4).decode_eq hc
  rwa [hrm] at h

theorem decode_encBranch_b (imm24 : BitVec 24) :
    decode (encBranch c false imm24) = .ok (.b c imm24) := by
  obtain ⟨hc, hclass, h24, himm⟩ := encBranch_fields c false imm24
  have h := (Reads.b hclass h24).decode_eq hc
  rwa [himm] at h

theorem decode_encBranch_bl (imm24 : BitVec 24) :
    decode (encBranch c true imm24) = .ok (.bl c imm24) := by
  obtain ⟨hc, hclass, h24, himm⟩ := encBranch_fields c true imm24
  have h := (Reads.bl hclass h24).decode_eq hc
  rwa [himm] at h

theorem decode_encUndefined (hi : BitVec 20) (lo : BitVec 4) :
    decode (encUndefined c hi lo) = .ok (.undefined c hi lo) := by
  obtain ⟨hc, hclass, hhi, h4, hlo⟩ := encUndefined_fields c hi lo
  have h := (Reads.undefined hclass h4).decode_eq hc
  rwa [hhi, hlo] at h

/-- Condition field 1111 with bits 27:25 = 101 is BLX label (rule R114). -/
theorem decode_blxLabel {w : Word} (h28 : bits w 28 4 = 0b1111#4) (hclass : bits w 25 3 = 0b101#3) :
    decode w = .ok (.blxLabel (bit w 24) (bits w 0 24)) := by
  rw [decode, Cond.ofCode_eq_none.mpr h28]
  exact if_pos hclass

theorem decode_encBlxLabel (half : Bool) (imm24 : BitVec 24) :
    decode (encBlxLabel half imm24) = .ok (.blxLabel half imm24) := by
  obtain ⟨h28, hclass, hhalf, himm⟩ := encBlxLabel_fields half imm24
  have h := decode_blxLabel h28 hclass
  rwa [hhalf, himm] at h

/-- Settles O1: each instruction by the format its word is written in. -/
theorem decodeOfEncode : Obligations.DecodeOfEncode := by
  intro i
  cases i with
  | mul | mla | umull | umlal | smull | smlal => exact decode_encMul _ rfl
  | b => exact decode_encBranch_b ..
  | bl => exact decode_encBranch_bl ..
  | bx => exact decode_encBx_bx ..
  | blxReg => exact decode_encBx_blxReg ..
  | blxLabel => exact decode_encBlxLabel ..
  | mrs => exact decode_encMrs ..
  | msrImm => exact decode_encMsrImm ..
  | msrReg => exact decode_encMsrReg ..
  | undefined => exact decode_encUndefined ..
  | ldrImmPre | ldrImmPost | strImmPre | strImmPost | ldrbImmPre | ldrbImmPost | strbImmPre
  | strbImmPost | ldrtImm | strtImm | ldrbtImm | strbtImm => exact decode_encLsImm ..
  | ldrRegPre | ldrRegPost | strRegPre | strRegPost | ldrbRegPre | ldrbRegPost | strbRegPre
  | strbRegPost | ldrtReg | strtReg | ldrbtReg | strbtReg => exact decode_encLsReg ..
  | ldrhImmPre | ldrhImmPost | ldrhRegPre | ldrhRegPost | strhImmPre | strhImmPost | strhRegPre
  | strhRegPost | ldrsbImmPre | ldrsbImmPost | ldrsbRegPre | ldrsbRegPost | ldrshImmPre
  | ldrshImmPost | ldrshRegPre | ldrshRegPost => exact decode_encHalf _ rfl rfl
  | _ => exact decode_of_dpView rfl

end Sys2Proof.Machine
end

section
/-!
PROOFS. A word that reads as an instruction is the word of the instruction: O2 (30_encoding.md
rules R110, R111).
-/

namespace Sys2Proof.Machine

/-! ## Fields put together again -/

/-- Two fields side by side are one field. -/
theorem bits_append_bits (w : Word) {hi lo m n : Nat} (h : hi = lo + n) :
    bits w hi m ++ bits w lo n = bits w lo (m + n) :=
  BitVec.extractLsb'_append_extractLsb'_eq_extractLsb' h

theorem bits_zero_all (w : Word) : bits w 0 32 = w := BitVec.extractLsb'_eq_self

theorem ofBool_bit (w : Word) (i : Nat) : BitVec.ofBool (bit w i) = bits w i 1 := by
  ext j hj
  obtain rfl : j = 0 := by omega
  simp [bits, bit]

theorem bits_clear {w : Word} {i : Nat} (h : bit w i = false) : bits w i 1 = 0#1 := by
  rw [← ofBool_bit, h]; rfl

theorem bits_set {w : Word} {i : Nat} (h : bit w i = true) : bits w i 1 = 1#1 := by
  rw [← ofBool_bit, h]; rfl

variable {c : Cond} {w : Word} {i : Instr}

/-! ## The formats, on the fields of a word -/

theorem encDpImm_bits (hc : bits w 28 4 = c.code) (hclass : bits w 25 3 = 0b001#3) :
    encDpImm c (bits w 21 4) (bit w 20) (bits w 16 4) (bits w 12 4) (bits w 8 4) (bits w 0 8) =
      w := by
  rw [encDpImm, ← hc, ← hclass]
  simp only [ofBool_bit, bits_append_bits]
  exact bits_zero_all w

theorem encDpShiftImm_bits (hc : bits w 28 4 = c.code) (hclass : bits w 25 3 = 0b000#3)
    (h4 : bit w 4 = false) :
    encDpShiftImm c (bits w 21 4) (bit w 20) (bits w 16 4) (bits w 12 4) (bits w 7 5)
      (.ofCode (bits w 5 2)) (bits w 0 4) = w := by
  rw [encDpShiftImm, ← hc, ← hclass, ← bits_clear h4, ShiftType.code_ofCode]
  simp only [ofBool_bit, bits_append_bits]
  exact bits_zero_all w

theorem encDpShiftReg_bits (hc : bits w 28 4 = c.code) (hclass : bits w 25 3 = 0b000#3)
    (h4 : bit w 4 = true) (h7 : bit w 7 = false) :
    encDpShiftReg c (bits w 21 4) (bit w 20) (bits w 16 4) (bits w 12 4) (bits w 8 4)
      (.ofCode (bits w 5 2)) (bits w 0 4) = w := by
  rw [encDpShiftReg, ← hc, ← hclass, ← bits_set h4, ← bits_clear h7, ShiftType.code_ofCode]
  simp only [ofBool_bit, bits_append_bits]
  exact bits_zero_all w

theorem encMul_bits (hc : bits w 28 4 = c.code) (hclass : bits w 25 3 = 0b000#3)
    (h4 : bit w 4 = true) (h7 : bit w 7 = true) (h5 : bits w 5 2 = 0b00#2)
    (h24 : bit w 24 = false) :
    encMul c (bits w 21 3) (bit w 20) (bits w 16 4) (bits w 12 4) (bits w 8 4) (bits w 0 4) =
      w := by
  have hhead : bits w 24 4 = 0b0000#4 := by
    rw [← bits_append_bits w (m := 3) (n := 1) rfl, hclass, bits_clear h24]; rfl
  have hmark : bits w 4 4 = 0b1001#4 := by
    rw [← bits_append_bits w (m := 3) (n := 1) rfl, ← bits_append_bits w (m := 1) (n := 2) rfl,
      bits_set h7, h5, bits_set h4]
    rfl
  rw [encMul, ← hc, ← hhead, ← hmark]
  simp only [ofBool_bit, bits_append_bits]
  exact bits_zero_all w

theorem encHalf_bits (hc : bits w 28 4 = c.code) (hclass : bits w 25 3 = 0b000#3)
    (h4 : bit w 4 = true) (h7 : bit w 7 = true) :
    encHalf c (bit w 24) (bit w 23) (bit w 22) (bit w 21) (bit w 20) (bits w 16 4) (bits w 12 4)
      (bits w 8 4) (bits w 5 2) (bits w 0 4) = w := by
  rw [encHalf, ← hc, ← hclass, show 1#1 = BitVec.ofBool true from rfl]
  nth_rw 1 [← h7]
  rw [← h4]
  simp only [ofBool_bit, bits_append_bits]
  exact bits_zero_all w

/-- The words of the status transfers begin with the class, I and 10. -/
theorem bits_psr_head {k : BitVec 3} (hclass : bits w 25 3 = k) (h23 : bits w 23 2 = 0b10#2) :
    bits w 23 5 = k ++ 0b10#2 := by
  rw [← bits_append_bits w (m := 3) (n := 2) rfl, hclass, h23]

theorem bits_two_flags {j : Nat} {a b : Bool} (ha : bit w (j + 1) = a) (hb : bit w j = b) :
    bits w j 2 = BitVec.ofBool a ++ BitVec.ofBool b := by
  rw [← bits_append_bits w (m := 1) (n := 1) rfl, ← ha, ← hb, ofBool_bit, ofBool_bit]

theorem encMrs_bits (hc : bits w 28 4 = c.code) (hclass : bits w 25 3 = 0b000#3)
    (h23 : bits w 23 2 = 0b10#2) (h21 : bit w 21 = false) (h20 : bit w 20 = false)
    (h16 : bits w 16 4 = 0b1111#4) (h0 : bits w 0 12 = 0#12) :
    encMrs c (.ofBit (bit w 22)) (bits w 12 4) = w := by
  have hhead : bits w 23 5 = 0b00010#5 := bits_psr_head hclass h23
  have hflags : bits w 20 2 = 0b00#2 := bits_two_flags h21 h20
  rw [encMrs, ← hc, ← hhead, ← hflags, ← h16, ← h0, PsrSel.toBit_ofBit]
  simp only [ofBool_bit, bits_append_bits]
  exact bits_zero_all w

theorem encMsrReg_bits (hc : bits w 28 4 = c.code) (hclass : bits w 25 3 = 0b000#3)
    (h23 : bits w 23 2 = 0b10#2) (h21 : bit w 21 = true) (h20 : bit w 20 = false)
    (h12 : bits w 12 4 = 0b1111#4) (hsbz : bits w 4 8 = 0#8) :
    encMsrReg c (.ofBit (bit w 22)) (bits w 16 4) (bits w 0 4) = w := by
  have hhead : bits w 23 5 = 0b00010#5 := bits_psr_head hclass h23
  have hflags : bits w 20 2 = 0b10#2 := bits_two_flags h21 h20
  rw [encMsrReg, ← hc, ← hhead, ← hflags, ← h12, ← hsbz, PsrSel.toBit_ofBit]
  simp only [ofBool_bit, bits_append_bits]
  exact bits_zero_all w

theorem encMsrImm_bits (hc : bits w 28 4 = c.code) (hclass : bits w 25 3 = 0b001#3)
    (h23 : bits w 23 2 = 0b10#2) (h21 : bit w 21 = true) (h20 : bit w 20 = false)
    (h12 : bits w 12 4 = 0b1111#4) :
    encMsrImm c (.ofBit (bit w 22)) (bits w 16 4) (bits w 8 4) (bits w 0 8) = w := by
  have hhead : bits w 23 5 = 0b00110#5 := bits_psr_head hclass h23
  have hflags : bits w 20 2 = 0b10#2 := bits_two_flags h21 h20
  rw [encMsrImm, ← hc, ← hhead, ← hflags, ← h12, PsrSel.toBit_ofBit]
  simp only [ofBool_bit, bits_append_bits]
  exact bits_zero_all w

theorem encBx_bits {op : BitVec 4} (hc : bits w 28 4 = c.code) (h20 : bits w 20 8 = 0b00010010#8)
    (h8 : bits w 8 12 = 0b111111111111#12) (h4 : bits w 4 4 = op) :
    encBx c op (bits w 0 4) = w := by
  rw [encBx, ← hc, ← h20, ← h8, ← h4]
  simp only [bits_append_bits]
  exact bits_zero_all w

theorem encLsImm_bits (hc : bits w 28 4 = c.code) (hclass : bits w 25 3 = 0b010#3) :
    encLsImm c (bit w 24) (bit w 23) (bit w 22) (bit w 21) (bit w 20) (bits w 16 4) (bits w 12 4)
      (bits w 0 12) = w := by
  rw [encLsImm, ← hc, ← hclass]
  simp only [ofBool_bit, bits_append_bits]
  exact bits_zero_all w

theorem encLsReg_bits (hc : bits w 28 4 = c.code) (hclass : bits w 25 3 = 0b011#3)
    (h4 : bit w 4 = false) :
    encLsReg c (bit w 24) (bit w 23) (bit w 22) (bit w 21) (bit w 20) (bits w 16 4) (bits w 12 4)
      (bits w 7 5) (.ofCode (bits w 5 2)) (bits w 0 4) = w := by
  rw [encLsReg, ← hc, ← hclass, ← bits_clear h4, ShiftType.code_ofCode]
  simp only [ofBool_bit, bits_append_bits]
  exact bits_zero_all w

theorem encUndefined_bits (hc : bits w 28 4 = c.code) (hclass : bits w 25 3 = 0b011#3)
    (h4 : bit w 4 = true) : encUndefined c (bits w 5 20) (bits w 0 4) = w := by
  rw [encUndefined, ← hc, ← hclass, ← bits_set h4]
  simp only [bits_append_bits]
  exact bits_zero_all w

theorem encBranch_bits (hc : bits w 28 4 = c.code) (hclass : bits w 25 3 = 0b101#3) :
    encBranch c (bit w 24) (bits w 0 24) = w := by
  rw [encBranch, ← hc, ← hclass]
  simp only [ofBool_bit, bits_append_bits]
  exact bits_zero_all w

theorem encBlxLabel_bits (h28 : bits w 28 4 = 0b1111#4) (hclass : bits w 25 3 = 0b101#3) :
    encBlxLabel (bit w 24) (bits w 0 24) = w := by
  rw [encBlxLabel, ← h28, ← hclass]
  simp only [ofBool_bit, bits_append_bits]
  exact bits_zero_all w

/-! ## The format of what a class's decoder answers -/

theorem encode_of_decoded {d : DpView} (h : d.decoded = some i) : encode i = d.word :=
  encode_of_dpView (dpView_of_decoded h)

theorem eq_ofNat_of_toNat {n k : Nat} {v : BitVec n} (h : v.toNat = k) : v = BitVec.ofNat n k := by
  rw [← h, BitVec.ofNat_toNat, BitVec.setWidth_eq]

theorem encode_of_decodeMultiply {code : BitVec 3} {sf : Bool} {hi lo rs rm : Reg}
    (h : decodeMultiply c code sf hi lo rs rm = some i) :
    encode i = encMul c code sf hi lo rs rm := by
  unfold decodeMultiply at h
  split at h
  case h_1 hcode =>
    obtain rfl : code = 0 := BitVec.eq_of_toNat_eq hcode
    simp only [Option.ite_none_right_eq_some, Option.some.injEq] at h
    obtain ⟨rfl, rfl⟩ := h
    rfl
  case h_7 => cases h
  all_goals
    next hcode =>
      obtain rfl := eq_ofNat_of_toNat hcode
      cases h
      rfl

/-- The bits L, S and H of an operation (rule R107). -/
def halfBits (op : HalfOp) : Bool × BitVec 2 :=
  match op with
  | .ldrh => (true, 0b01#2) | .strh => (false, 0b01#2)
  | .ldrsb => (true, 0b10#2) | .ldrsh => (true, 0b11#2)

theorem halfOp_ofBits_eq_some {l : Bool} {sh : BitVec 2} {op : HalfOp} :
    HalfOp.ofBits l sh = some op ↔ l = (halfBits op).1 ∧ sh = (halfBits op).2 := by
  cases op <;> revert l sh <;> decide

/-- The two words a half transfer has no row for (rules R107, R111). -/
theorem decodeHalf_cases {p u imm w : Bool} {op : HalfOp} {rn rd : Reg} {immH immL : BitVec 4}
    (h : decodeHalf c p u imm w op rn rd immH immL = some i) :
    (p = false → w = false) ∧ (imm = false → immH = 0) := by
  unfold decodeHalf at h
  split at h
  · cases h
  · next hpw =>
    split at h
    · cases h
    · next himm => exact ⟨by simpa using hpw, by simpa using himm⟩

theorem encode_of_decodeHalf {p u imm w l : Bool} {op : HalfOp} {rn rd : Reg}
    {immH immL : BitVec 4} {sh : BitVec 2} (hop : HalfOp.ofBits l sh = some op)
    (h : decodeHalf c p u imm w op rn rd immH immL = some i) :
    encode i = encHalf c p u imm w l rn rd immH sh immL := by
  obtain ⟨hw, hH⟩ := decodeHalf_cases h
  obtain ⟨rfl, rfl⟩ := halfOp_ofBits_eq_some.mp hop
  cases p with
  | false =>
    obtain rfl := hw rfl
    cases imm with
    | false =>
      obtain rfl := hH rfl
      cases op <;> cases h <;> rfl
    | true => cases op <;> cases h <;> rfl
  | true =>
    cases imm with
    | false =>
      obtain rfl := hH rfl
      cases op <;> cases h <;> rfl
    | true => cases op <;> cases h <;> rfl

theorem encode_decodeLsImm (p u b w l : Bool) (rn rd : Reg) (imm12 : BitVec 12) :
    encode (decodeLsImm c p u (.ofBits b l) w rn rd imm12) =
      encLsImm c p u b w l rn rd imm12 := by
  cases p <;> cases w <;> cases b <;> cases l <;> rfl

theorem encode_decodeLsReg (p u b w l : Bool) (rn rd : Reg) (shiftImm : BitVec 5) (sh : ShiftType)
    (rm : Reg) : encode (decodeLsReg c p u (.ofBits b l) w rn rd shiftImm sh rm) =
      encLsReg c p u b w l rn rd shiftImm sh rm := by
  cases p <;> cases w <;> cases b <;> cases l <;> rfl

/-! ## Every format -/

theorem Reads.encode_eq (hc : bits w 28 4 = c.code) (h : Reads c w i) : encode i = w := by
  cases h with
  | dpImm hclass h =>
    rw [encode_of_decoded h, DpView.word, dpRead, DpOp.code_ofCode]
    exact encDpImm_bits hc hclass
  | dpShiftImm hclass h4 h =>
    rw [encode_of_decoded h, DpView.word, dpRead, DpOp.code_ofCode]
    exact encDpShiftImm_bits hc hclass h4
  | dpShiftReg hclass h4 h7 h =>
    rw [encode_of_decoded h, DpView.word, dpRead, DpOp.code_ofCode]
    exact encDpShiftReg_bits hc hclass h4 h7
  | multiply hclass h4 h7 h5 h24 h =>
    exact (encode_of_decodeMultiply h).trans (encMul_bits hc hclass h4 h7 h5 h24)
  | half hclass h4 h7 hop h =>
    exact (encode_of_decodeHalf hop h).trans (encHalf_bits hc hclass h4 h7)
  | mrs hclass h23 h21 h20 h16 h0 => exact encMrs_bits hc hclass h23 h21 h20 h16 h0
  | msrReg hclass h23 h21 h20 h12 hsbz => exact encMsrReg_bits hc hclass h23 h21 h20 h12 hsbz
  | msrImm hclass h23 h21 h20 h12 => exact encMsrImm_bits hc hclass h23 h21 h20 h12
  | bx h20 h8 h4 => exact encBx_bits hc h20 h8 h4
  | blxReg h20 h8 h4 => exact encBx_bits hc h20 h8 h4
  | lsImm hclass => exact (encode_decodeLsImm ..).trans (encLsImm_bits hc hclass)
  | lsReg hclass h4 => exact (encode_decodeLsReg ..).trans (encLsReg_bits hc hclass h4)
  | undefined hclass h4 => exact encUndefined_bits hc hclass h4
  | b hclass h24 =>
    have h := encBranch_bits hc hclass
    rwa [h24] at h
  | bl hclass h24 =>
    have h := encBranch_bits hc hclass
    rwa [h24] at h

/-- What a word of condition field 1111 decodes to (rule R114). -/
theorem blxLabel_of_decode (h28 : bits w 28 4 = 0b1111#4) (h : decode w = .ok i) :
    bits w 25 3 = 0b101#3 ∧ i = .blxLabel (bit w 24) (bits w 0 24) := by
  simp only [decode, Cond.ofCode_eq_none.mpr h28] at h
  split at h
  · next hclass =>
    cases h
    exact ⟨hclass, rfl⟩
  · cases h

/-- Settles O2: a word is put together from the fields the decoder reads. -/
theorem encodeOfDecode : Obligations.EncodeOfDecode := by
  intro w i h
  cases hcode : Cond.ofCode (bits w 28 4) with
  | none =>
    have h28 : bits w 28 4 = 0b1111#4 := Cond.ofCode_eq_none.mp hcode
    obtain ⟨hclass, rfl⟩ := blxLabel_of_decode h28 h
    exact encBlxLabel_bits h28 hclass
  | some c => exact ((decode_eq_ok_iff hcode).mp h).encode_eq (Cond.code_of_ofCode hcode).symm

end Sys2Proof.Machine
end

section
/-!
PROOFS. The words of fixed fields: O3, O4, O5, O6 (30_encoding.md rules R93 to R107, R112 to
R114, 60_exceptions.md rules R333, R334).
-/

namespace Sys2Proof.Machine

variable {w : Word}

theorem decode_of_encode {i : Instr} (h : encode i = w) : decode w = .ok i := by
  rw [← h, decodeOfEncode i]

/-- Settles O3: each word is the one its instruction is written as. -/
theorem wordsOfTheFormats : Obligations.WordsOfTheFormats := by
  and_intros <;> exact decode_of_encode (by decide)

theorem executeWord_of_decode {i : Instr} (h : decode w = .ok i) (s : State) :
    executeWord w s = exec i s := by
  rw [executeWord, h]

/-- Settles O4: without a condition the decoder looks at bits 27:25 only. -/
theorem conditionFieldOnes : Obligations.ConditionFieldOnes := by
  intro w s h28
  refine ⟨decode_blxLabel h28, fun hclass => ?_⟩
  have herror : decode w = .error .cond1111 := by
    rw [decode, Cond.ofCode_eq_none.mpr h28]
    exact if_neg hclass
  exact executeWord_of_error s herror

/-- A word with a condition that is no instruction's is refused, under one name (rule R112). -/
theorem executeWord_of_no_instruction (h28 : bits w 28 4 ≠ 0b1111#4) (h : ∀ i, decode w ≠ .ok i)
    (s : State) : executeWord w s = .refused .encodingNotInScope := by
  cases hdecode : decode w with
  | ok i => exact absurd hdecode (h i)
  | error e => rw [executeWord_of_error s hdecode, refusalOf_decode_error hdecode, if_neg h28]

theorem exists_cond_of_ne_ones (h28 : bits w 28 4 ≠ 0b1111#4) :
    ∃ c, Cond.ofCode (bits w 28 4) = some c :=
  Option.ne_none_iff_exists'.mp (mt Cond.ofCode_eq_none.mp h28)

/-- Settles O5: no format has one of the three classes. -/
theorem classesOutOfScope : Obligations.ClassesOutOfScope := by
  intro w s h28 hclass
  refine executeWord_of_no_instruction h28 (fun i hdecode => ?_) s
  obtain ⟨c, hc⟩ := exists_cond_of_ne_ones h28
  have hread : decodeClass c w = some i := ((decode_eq_ok_iff hc).mp hdecode).decodeClass_eq
  rcases hclass with hclass | hclass | hclass <;>
    · rw [decodeClass, hclass] at hread
      cases hread

/-- Settles O6: UNDEFINED is the entry of its exception, guarded by the condition alone. -/
theorem undefinedSpace : Obligations.UndefinedSpace := by
  intro w c s hc hclass h4
  have hdecode : decode w = .ok (.undefined c (bits w 5 20) (bits w 0 4)) :=
    (decode_eq_ok_iff hc).mpr (.undefined hclass h4)
  rw [executeWord_of_decode hdecode]
  refine ⟨fun hpass => ?_, fun hfail hnext => ?_⟩
  · have hexec := guarded_pass (r := none)
      (body := fun s => .next (takeException .undefinedInstruction s)) rfl hpass
    exact ⟨_, hexec, entered_takeException .undefinedInstruction rfl rfl rfl rfl rfl rfl⟩
  · exact (failedCondition _ c s rfl rfl hfail).1 hnext

end Sys2Proof.Machine
end

section
/-!
PROOFS. A mask and a match as fields with their values (30_encoding.md rules R110 to R112).
-/

namespace Sys2Proof.Machine

/-! ## One field -/

/-- What a row of the opcode table asks of a word: a field, or one bit. -/
inductive Requirement where
  | field (lo len : Nat) (v : BitVec len)
  | flag (j : Nat) (b : Bool)

/-- A word meets a requirement. -/
def Requirement.Holds (w : Word) (r : Requirement) : Prop :=
  match r with
  | .field lo len v => bits w lo len = v
  | .flag j b => bit w j = b

/-- The first bit and the length. -/
def Requirement.place (r : Requirement) : Nat × Nat :=
  match r with
  | .field lo len _ => (lo, len)
  | .flag j _ => (j, 1)

/-- The value at its place in the word. -/
def Requirement.value (r : Requirement) : Word :=
  match r with
  | .field lo _ v => v.setWidth 32 <<< lo
  | .flag j b => (BitVec.ofBool b).setWidth 32 <<< j

/-- The bits of a place. -/
def placeMask (p : Nat × Nat) : Word := (BitVec.allOnes p.2).setWidth 32 <<< p.1

theorem and_placeMask_eq {w : Word} {lo len : Nat} {v : BitVec len} (h : lo + len ≤ 32) :
    w &&& placeMask (lo, len) = v.setWidth 32 <<< lo ↔ bits w lo len = v := by
  constructor
  · intro hw
    ext j hj
    have hbit := congrArg (·.getLsbD (lo + j)) hw
    have hlt : lo + j < 32 := by omega
    have hlt' : j < 32 := by omega
    simpa [placeMask, bits, hj, hlt, hlt', ← BitVec.getLsbD_eq_getElem] using hbit
  · rintro rfl
    ext j hj
    by_cases hlo : lo ≤ j
    · have hsum : lo + (j - lo) = j := by omega
      have hlt : j - lo < 32 := by omega
      simp [placeMask, bits, hj, hsum, hlt, ← BitVec.getLsbD_eq_getElem, Bool.and_comm,
        Bool.and_assoc]
    · simp [placeMask, Nat.lt_of_not_le hlo]

theorem shifted_and_placeMask {lo len : Nat} (v : BitVec len) :
    v.setWidth 32 <<< lo &&& placeMask (lo, len) = v.setWidth 32 <<< lo := by
  ext j hj
  by_cases hlen : j - lo < len
  · simp +contextual [placeMask, hlen]
  · simp [BitVec.getLsbD_of_ge _ _ (Nat.le_of_not_lt hlen)]

theorem Requirement.and_mask_eq {w : Word} (r : Requirement) (h : r.place.1 + r.place.2 ≤ 32) :
    w &&& placeMask r.place = r.value ↔ r.Holds w := by
  cases r with
  | field lo len v => exact and_placeMask_eq h
  | flag j b =>
    have hflag : bits w j 1 = BitVec.ofBool b ↔ bit w j = b := by
      rw [← ofBool_bit]
      cases bit w j <;> cases b <;> decide
    exact (and_placeMask_eq h).trans hflag

theorem Requirement.value_and_mask (r : Requirement) : r.value &&& placeMask r.place = r.value := by
  cases r <;> exact shifted_and_placeMask _

/-! ## Two masks -/

theorem or_and_or {m n u v : Word} (hu : u &&& m = u) (hv : v &&& n = v) :
    (u ||| v) &&& (m ||| n) = u ||| v := by
  simp only [BitVec.eq_of_getLsbD_eq_iff, BitVec.getLsbD_and, BitVec.getLsbD_or] at *
  grind

/-- Values under masks that do not overlap are compared one by one. -/
theorem and_or_eq_iff {w m n u v : Word} (hmn : m &&& n = 0) (hu : u &&& m = u)
    (hv : v &&& n = v) : w &&& (m ||| n) = u ||| v ↔ w &&& m = u ∧ w &&& n = v := by
  simp only [BitVec.eq_of_getLsbD_eq_iff, BitVec.getLsbD_and, BitVec.getLsbD_or] at *
  grind

/-! ## A row -/

/-- A word meets every requirement of a list. -/
def Meets (w : Word) (rs : List Requirement) : Prop := ∀ r ∈ rs, r.Holds w

/-- The mask of a row. -/
def maskOf (rs : List Requirement) : Word :=
  match rs with
  | [] => 0
  | r :: rs => placeMask r.place ||| maskOf rs

/-- The match of a row. -/
def matchOf (rs : List Requirement) : Word :=
  match rs with
  | [] => 0
  | r :: rs => r.value ||| matchOf rs

/-- The places lie in the word and do not overlap. -/
def apart (rs : List Requirement) : Bool :=
  match rs with
  | [] => true
  | r :: rs =>
    decide (r.place.1 + r.place.2 ≤ 32) && placeMask r.place &&& maskOf rs == 0 && apart rs

theorem matchOf_and_maskOf (rs : List Requirement) : matchOf rs &&& maskOf rs = matchOf rs := by
  induction rs with
  | nil => rfl
  | cons r rs ih => exact or_and_or r.value_and_mask ih

/-- A word matches a row exactly if it has the row's fields. -/
theorem and_maskOf_eq_iff {w : Word} {rs : List Requirement} (h : apart rs = true) :
    w &&& maskOf rs = matchOf rs ↔ Meets w rs := by
  induction rs with
  | nil => simp [maskOf, matchOf, Meets]
  | cons r rs ih =>
    simp only [apart, Bool.and_eq_true, decide_eq_true_eq, beq_iff_eq] at h
    obtain ⟨⟨hlast, hmask⟩, hrest⟩ := h
    rw [maskOf, matchOf, and_or_eq_iff hmask r.value_and_mask (matchOf_and_maskOf rs),
      r.and_mask_eq hlast, ih hrest, Meets, Meets, List.forall_mem_cons]

end Sys2Proof.Machine
end

section
/-!
PROOFS. The rows of the opcode table are the words the decoder reads: O7 (30_encoding.md rules
R97, R110 to R112, R115).
-/

namespace Sys2Proof.Machine

/-! ## The rows by their fields -/

/-- A requirement that only some rows of a family make. -/
def onlyIf (b : Bool) (rs : List Requirement) : List Requirement := bif b then rs else []

/-- The fields of rule R97, for an operation. -/
def dpRow (op : DpOp) : List Requirement :=
  .field 21 4 op.code ::
    (onlyIf (isCompare op) [.flag 20 true, .field 12 4 0] ++ onlyIf (isMove op) [.field 16 4 0])

/-- The sixteen operations, in the order of their codes. -/
def dpOps : List DpOp :=
  [.and, .eor, .sub, .rsb, .add, .adc, .sbc, .rsc,
    .tst, .teq, .cmp, .cmn, .orr, .mov, .bic, .mvn]

/-- Rules R98, R99. -/
def mulRow (code : BitVec 3) : List Requirement :=
  [.field 25 3 0b000#3, .flag 24 false, .field 21 3 code, .flag 7 true, .field 5 2 0b00#2,
    .flag 4 true] ++ onlyIf (code == 0) [.field 12 4 0]

/-- The codes w[23:21] that are not reserved (rule R115). -/
def mulCodes : List (BitVec 3) := [0b000#3, 0b001#3, 0b100#3, 0b101#3, 0b110#3, 0b111#3]

/-- Rule R106, for the bits B and L, the bit I and the indexing P, with W where it has one. -/
def lsRow (x : (Bool × Bool) × Bool × Bool × Bool) : List Requirement :=
  let ((b, l), reg, p, w) := x
  (bif reg then [.field 25 3 0b011#3, .flag 4 false] else [.field 25 3 0b010#3]) ++
    [.flag 24 p, .flag 22 b, .flag 20 l] ++ onlyIf (!p) [.flag 21 w]

/-- LDR, STR, LDRB, STRB by the bits B and L. -/
def lsOps : List (Bool × Bool) := [(false, true), (false, false), (true, true), (true, false)]

/-- The rows of the word and byte transfers: W is a field of the rows with P = 0 only. -/
def lsKinds : List ((Bool × Bool) × Bool × Bool × Bool) :=
  lsOps ×ˢ [false, true] ×ˢ [true, false] ×ˢ [false] ++
    lsOps ×ˢ [false, true] ×ˢ [false] ×ˢ [true]

/-- Rule R107, for an operation, the bit 22 and P. -/
def halfRow (x : HalfOp × Bool × Bool) : List Requirement :=
  let (op, imm, p) := x
  [.field 25 3 0b000#3, .flag 24 p, .flag 22 imm, .flag 20 (halfBits op).1, .flag 7 true,
    .field 5 2 (halfBits op).2, .flag 4 true] ++
    onlyIf (!p) [.flag 21 false] ++ onlyIf (!imm) [.field 8 4 0]

/-- The rows of the halfword and signed transfers. -/
def halfKinds : List (HalfOp × Bool × Bool) :=
  ([.ldrh, .strh, .ldrsb, .ldrsh] : List HalfOp) ×ˢ [true, false] ×ˢ [true, false]

/-- The rows with one format of their own (rules R100, R101, R103 to R105, R113). -/
def singleRows : List (List Requirement) := [
  [.field 25 3 0b101#3, .flag 24 false],
  [.field 25 3 0b101#3, .flag 24 true],
  [.field 20 8 0b00010010#8, .field 8 12 0b111111111111#12, .field 4 4 0b0001#4],
  [.field 20 8 0b00010010#8, .field 8 12 0b111111111111#12, .field 4 4 0b0011#4],
  [.field 25 3 0b000#3, .field 23 2 0b10#2, .flag 21 false, .flag 20 false, .field 16 4 0b1111#4,
    .field 0 12 0#12],
  [.field 25 3 0b001#3, .field 23 2 0b10#2, .flag 21 true, .flag 20 false, .field 12 4 0b1111#4],
  [.field 25 3 0b000#3, .field 23 2 0b10#2, .flag 21 true, .flag 20 false, .field 12 4 0b1111#4,
    .field 4 8 0#8],
  [.field 25 3 0b011#3, .flag 4 true]]

/-- The rows of the opcode table as fields, in the table's order. -/
def tableRows : List (List Requirement) :=
  dpOps.map (fun op => [.field 25 3 0b001#3] ++ dpRow op) ++
  dpOps.map (fun op => [.field 25 3 0b000#3, .flag 4 false] ++ dpRow op) ++
  dpOps.map (fun op => [.field 25 3 0b000#3, .flag 4 true, .flag 7 false] ++ dpRow op) ++
  mulCodes.map mulRow ++
  lsKinds.map lsRow ++ halfKinds.map halfRow ++
  singleRows

theorem opcodeRows_eq : opcodeRows = tableRows.map fun rs => (maskOf rs, matchOf rs) := by
  decide +kernel

theorem tableRows_apart : ∀ rs ∈ tableRows, apart rs = true := by
  decide +kernel

theorem exists_row_iff_meets {w : Word} :
    (∃ row ∈ opcodeRows, w &&& row.1 = row.2) ↔ ∃ rs ∈ tableRows, Meets w rs := by
  simp only [opcodeRows_eq, List.mem_map, exists_exists_and_eq_and]
  exact exists_congr fun rs => and_congr_right fun h => and_maskOf_eq_iff (tableRows_apart rs h)

/-! ## Meeting a row -/

section

variable {w : Word}

@[simp] theorem meets_nil : Meets w [] := List.forall_mem_nil _

@[simp] theorem meets_cons {r : Requirement} {rs : List Requirement} :
    Meets w (r :: rs) ↔ r.Holds w ∧ Meets w rs := List.forall_mem_cons

@[simp] theorem meets_append {rs qs : List Requirement} :
    Meets w (rs ++ qs) ↔ Meets w rs ∧ Meets w qs := List.forall_mem_append

@[simp] theorem meets_onlyIf {b : Bool} {rs : List Requirement} :
    Meets w (onlyIf b rs) ↔ (b = true → Meets w rs) := by
  cases b <;> simp [onlyIf]

@[simp] theorem holds_field {lo len : Nat} {v : BitVec len} :
    (Requirement.field lo len v).Holds w ↔ bits w lo len = v := Iff.rfl

@[simp] theorem holds_flag {j : Nat} {b : Bool} :
    (Requirement.flag j b).Holds w ↔ bit w j = b := Iff.rfl

end

variable {c : Cond} {w : Word}

/-! ## The families -/

theorem mem_dpOps (op : DpOp) : op ∈ dpOps := by cases op <;> decide

/-- The operation of a word has a row the word meets exactly if its decoder answers. -/
theorem exists_dpRow_iff (rs : List Requirement) (operand : Operand2) :
    (∃ op ∈ dpOps, Meets w (rs ++ dpRow op)) ↔
      Meets w rs ∧ ∃ i, (dpRead c w operand).decoded = some i := by
  simp only [exists_decoded_iff, DpView.Canonical, dpRead, dpRow, meets_append, meets_cons,
    meets_onlyIf, meets_nil, holds_field, holds_flag, and_true]
  constructor
  · rintro ⟨op, -, hrs, hop, hrest⟩
    rw [hop, DpOp.ofCode_code]
    exact ⟨hrs, hrest⟩
  · rintro ⟨hrs, hrest⟩
    exact ⟨_, mem_dpOps _, hrs, (DpOp.code_ofCode _).symm, hrest⟩

theorem exists_decodeMultiply_iff {code : BitVec 3} {sf : Bool} {hi lo rs rm : Reg} :
    (∃ i, decodeMultiply c code sf hi lo rs rm = some i) ↔
      code ∈ mulCodes ∧ (code = 0 → lo = 0) := by
  have hcode : code = 0 ∨ code = 1 ∨ code = 2 ∨ code = 3 ∨ code = 4 ∨ code = 5 ∨ code = 6 ∨
      code = 7 := by
    revert code; decide
  rcases hcode with rfl | rfl | rfl | rfl | rfl | rfl | rfl | rfl <;>
    simp [decodeMultiply, mulCodes]

theorem exists_mulRow_iff :
    (∃ code ∈ mulCodes, Meets w (mulRow code)) ↔
      bits w 25 3 = 0b000#3 ∧ bit w 24 = false ∧ bit w 7 = true ∧ bits w 5 2 = 0b00#2 ∧
        bit w 4 = true ∧ ∃ i, decodeMultiply c (bits w 21 3) (bit w 20) (bits w 16 4)
          (bits w 12 4) (bits w 8 4) (bits w 0 4) = some i := by
  simp only [exists_decodeMultiply_iff, mulRow, meets_append, meets_cons, meets_onlyIf, meets_nil,
    holds_field, holds_flag, and_true, beq_iff_eq]
  constructor
  · rintro ⟨code, hcode, ⟨hclass, h24, rfl, h7, h5, h4⟩, hlo⟩
    exact ⟨hclass, h24, h7, h5, h4, hcode, hlo⟩
  · rintro ⟨hclass, h24, h7, h5, h4, hcode, hlo⟩
    exact ⟨_, hcode, ⟨hclass, h24, rfl, h7, h5, h4⟩, hlo⟩

theorem exists_decodeHalf_iff {p u imm w : Bool} {op : HalfOp} {rn rd : Reg}
    {immH immL : BitVec 4} : (∃ i, decodeHalf c p u imm w op rn rd immH immL = some i) ↔
      (p = false → w = false) ∧ (imm = false → immH = 0) := by
  constructor
  · rintro ⟨i, h⟩
    exact decodeHalf_cases h
  · rintro ⟨hw, hH⟩
    have hpw : ¬ (p = false ∧ w = true) := by simpa using hw
    have himm : ¬ (imm = false ∧ immH ≠ 0) := by simpa using hH
    unfold decodeHalf
    rw [if_neg hpw, if_neg himm]
    cases op <;> cases p <;> cases imm <;> exact ⟨_, rfl⟩

theorem mem_halfKinds (x : HalfOp × Bool × Bool) : x ∈ halfKinds := by
  obtain ⟨op, imm, p⟩ := x
  cases op <;> cases imm <;> cases p <;> decide

theorem exists_halfRow_iff :
    (∃ x ∈ halfKinds, Meets w (halfRow x)) ↔
      bits w 25 3 = 0b000#3 ∧ bit w 7 = true ∧ bit w 4 = true ∧
        ∃ op, HalfOp.ofBits (bit w 20) (bits w 5 2) = some op ∧
          ∃ i, decodeHalf c (bit w 24) (bit w 23) (bit w 22) (bit w 21) op (bits w 16 4)
            (bits w 12 4) (bits w 8 4) (bits w 0 4) = some i := by
  simp only [exists_decodeHalf_iff, halfOp_ofBits_eq_some, halfRow, meets_append, meets_cons,
    meets_onlyIf, meets_nil, holds_field, holds_flag, and_true, Bool.not_eq_true']
  constructor
  · rintro ⟨⟨op, imm, p⟩, -, ⟨⟨hclass, rfl, rfl, hl, h7, hsh, h4⟩, hw⟩, hH⟩
    exact ⟨hclass, h7, h4, op, ⟨hl, hsh⟩, hw, hH⟩
  · rintro ⟨hclass, h7, h4, op, ⟨hl, hsh⟩, hw, hH⟩
    exact ⟨(op, _, _), mem_halfKinds _, ⟨⟨hclass, rfl, rfl, hl, h7, hsh, h4⟩, hw⟩, hH⟩

theorem mem_lsKinds : ∀ b l reg p w : Bool, ((b, l), reg, p, !p && w) ∈ lsKinds := by decide

/-- Every word of the classes 010 and 011 with bit 4 = 0 where I = 1 is a transfer. -/
theorem exists_lsRow_iff :
    (∃ x ∈ lsKinds, Meets w (lsRow x)) ↔
      bits w 25 3 = 0b010#3 ∨ (bits w 25 3 = 0b011#3 ∧ bit w 4 = false) := by
  constructor
  · rintro ⟨⟨⟨b, l⟩, reg, p, v⟩, -, h⟩
    rw [lsRow, meets_append, meets_append] at h
    obtain ⟨⟨hclass, -⟩, -⟩ := h
    cases reg
    · exact .inl (by simpa using hclass)
    · exact .inr (by simpa using hclass)
  · rintro (hclass | ⟨hclass, h4⟩)
    · exact ⟨_, mem_lsKinds (bit w 22) (bit w 20) false (bit w 24) (bit w 21), by
        simp +contextual [lsRow, hclass]⟩
    · exact ⟨_, mem_lsKinds (bit w 22) (bit w 20) true (bit w 24) (bit w 21), by
        simp +contextual [lsRow, hclass, h4]⟩

theorem exists_reads_of_singleRow (h : ∃ rs ∈ singleRows, Meets w rs) : ∃ i, Reads c w i := by
  simp only [singleRows, List.exists_mem_cons_iff, meets_cons, meets_nil, holds_field, holds_flag,
    and_true, List.not_mem_nil, false_and, exists_false, or_false] at h
  rcases h with ⟨hclass, h24⟩ | ⟨hclass, h24⟩ | ⟨h20, h8, h4⟩ | ⟨h20, h8, h4⟩ |
    ⟨hclass, h23, h21, h20, h16, h0⟩ | ⟨hclass, h23, h21, h20, h12⟩ |
    ⟨hclass, h23, h21, h20, h12, hsbz⟩ | ⟨hclass, h4⟩
  · exact ⟨_, .b hclass h24⟩
  · exact ⟨_, .bl hclass h24⟩
  · exact ⟨_, .bx h20 h8 h4⟩
  · exact ⟨_, .blxReg h20 h8 h4⟩
  · exact ⟨_, .mrs hclass h23 h21 h20 h16 h0⟩
  · exact ⟨_, .msrImm hclass h23 h21 h20 h12⟩
  · exact ⟨_, .msrReg hclass h23 h21 h20 h12 hsbz⟩
  · exact ⟨_, .undefined hclass h4⟩

/-- The families of the table, each by what its decoder reads. -/
theorem exists_tableRow_iff : (∃ rs ∈ tableRows, Meets w rs) ↔ ∃ i, Reads c w i := by
  simp only [tableRows, List.mem_append, List.mem_map, or_and_right, exists_or,
    exists_exists_and_eq_and, or_assoc]
  rw [exists_dpRow_iff (c := c) _ (.imm (bits w 8 4) (bits w 0 8)),
    exists_dpRow_iff (c := c) _ (.shiftImm (bits w 7 5) (.ofCode (bits w 5 2)) (bits w 0 4)),
    exists_dpRow_iff (c := c) _ (.shiftReg (bits w 8 4) (.ofCode (bits w 5 2)) (bits w 0 4)),
    exists_mulRow_iff (c := c), exists_lsRow_iff, exists_halfRow_iff (c := c)]
  simp only [meets_cons, meets_nil, holds_field, holds_flag, and_true]
  constructor
  · rintro (⟨hclass, i, h⟩ | ⟨⟨hclass, h4⟩, i, h⟩ | ⟨⟨hclass, h4, h7⟩, i, h⟩ |
      ⟨hclass, h24, h7, h5, h4, i, h⟩ | (hclass | ⟨hclass, h4⟩) |
      ⟨hclass, h7, h4, op, hop, i, h⟩ | h)
    · exact ⟨i, .dpImm hclass h⟩
    · exact ⟨i, .dpShiftImm hclass h4 h⟩
    · exact ⟨i, .dpShiftReg hclass h4 h7 h⟩
    · exact ⟨i, .multiply hclass h4 h7 h5 h24 h⟩
    · exact ⟨_, .lsImm hclass⟩
    · exact ⟨_, .lsReg hclass h4⟩
    · exact ⟨i, .half hclass h4 h7 hop h⟩
    · exact exists_reads_of_singleRow h
  · rintro ⟨i, h⟩
    cases h with
    | dpImm hclass h => exact .inl ⟨hclass, i, h⟩
    | dpShiftImm hclass h4 h => exact .inr (.inl ⟨⟨hclass, h4⟩, i, h⟩)
    | dpShiftReg hclass h4 h7 h => exact .inr (.inr (.inl ⟨⟨hclass, h4, h7⟩, i, h⟩))
    | multiply hclass h4 h7 h5 h24 h =>
      exact .inr (.inr (.inr (.inl ⟨hclass, h24, h7, h5, h4, i, h⟩)))
    | lsImm hclass => exact .inr (.inr (.inr (.inr (.inl (.inl hclass)))))
    | lsReg hclass h4 => exact .inr (.inr (.inr (.inr (.inl (.inr ⟨hclass, h4⟩)))))
    | half hclass h4 h7 hop h =>
      exact .inr (.inr (.inr (.inr (.inr (.inl ⟨hclass, h7, h4, _, hop, i, h⟩)))))
    | b hclass h24 => simp [singleRows, hclass, h24]
    | bl hclass h24 => simp [singleRows, hclass, h24]
    | bx h20 h8 h4 => simp [singleRows, h20, h8, h4]
    | blxReg h20 h8 h4 => simp [singleRows, h20, h8, h4]
    | mrs hclass h23 h21 h20 h16 h0 => simp [singleRows, hclass, h23, h21, h20, h16, h0]
    | msrImm hclass h23 h21 h20 h12 => simp [singleRows, hclass, h23, h21, h20, h12]
    | msrReg hclass h23 h21 h20 h12 hsbz => simp [singleRows, hclass, h23, h21, h20, h12, hsbz]
    | undefined hclass h4 => simp [singleRows, hclass, h4]

/-- Settles O7: a word matches a row exactly if it meets the row's fields, and then it reads. -/
theorem wordsOfNoRow : Obligations.WordsOfNoRow := by
  intro w s h28
  obtain ⟨c, hc⟩ := exists_cond_of_ne_ones h28
  have hrows : (∃ row ∈ opcodeRows, w &&& row.1 = row.2) ↔ ∃ i, decode w = .ok i := by
    simp only [decode_eq_ok_iff hc]
    exact exists_row_iff_meets.trans exists_tableRow_iff
  refine ⟨fun hnone => executeWord_of_no_instruction h28 (fun i hdecode => ?_) s, hrows.mp⟩
  obtain ⟨row, hmem, hrow⟩ := hrows.mpr ⟨i, hdecode⟩
  exact hnone row hmem hrow

end Sys2Proof.Machine
end

section
/-!
PROOFS. The branches: O30, O31 and O32 (40_branch.md, rules R131 to R135).
-/

namespace Sys2Proof.Machine

/-! ## Targets -/

/-- The offset is four times the signed field: the sign extension loses nothing. -/
theorem branchOffset_toInt (imm24 : BitVec 24) :
    (branchOffset imm24).toInt = 4 * imm24.toInt := by
  rw [branchOffset, BitVec.toInt_signExtend_of_le (by decide), BitVec.toInt_append_zero]
  omega

theorem branchTarget_eq (imm24 : BitVec 24) (half : Nat) (s : State) :
    branchTarget imm24 half s = s.pc.toNat + 8 + 4 * imm24.toInt + half := by
  rw [branchTarget, branchOffset_toInt]

/-- An integer of the address space is the address it is written as. -/
theorem toNat_ofInt_of_address {t : Int} (h0 : 0 ≤ t) (h1 : t < 2 ^ 32) :
    ((BitVec.ofInt 32 t).toNat : Int) = t := by
  rw [BitVec.toNat_ofInt]
  omega

/-! ## What the shared operations do -/

theorem branchTo_of_range {t last : Int} (h0 : 0 ≤ t) (h1 : t ≤ last) (s : State) :
    branchTo t last s = .next { s with pc := BitVec.ofInt 32 t } :=
  if_neg (by omega)

theorem branchTo_wraps {t last : Int} (h : t < 0 ∨ last < t) (s : State) :
    branchTo t last s = .refused .branchWraps := if_pos h

/-- The two ways of asking for the low bits 10 agree. -/
theorem bits_eq_two_iff {v : Word} :
    v.extractLsb' 0 2 = 0b10#2 ↔ v.getLsbD 0 = false ∧ v.getLsbD 1 = true := by
  refine ⟨fun h => ⟨?_, ?_⟩, fun ⟨h0, h1⟩ => bits_eq_two h0 h1⟩
  · simpa using congrArg (BitVec.getLsbD · 0) h
  · simpa using congrArg (BitVec.getLsbD · 1) h

theorem exchange_of_admitted {v : Word} (h : v.extractLsb' 0 2 ≠ 0b10#2) (r : Refusal)
    (s : State) :
    exchange r v s =
      .next { s with cpsr := { s.cpsr with t := v.getLsbD 0 }, pc := v &&& 0xFFFFFFFE } :=
  if_neg (mt bits_eq_two_iff.mpr h)

theorem exchange_misaligned {v : Word} (h : v.extractLsb' 0 2 = 0b10#2) (r : Refusal)
    (s : State) : exchange r v s = .refused r := if_pos (bits_eq_two_iff.mp h)

/-! ## What the link changes and leaves unchanged -/

theorem link_onlyReg (s : State) : OnlyReg s (link s) 14 (s.pc + 4) :=
  State.reg_writeReg s 14 (s.pc + 4)

theorem link_cpsr (s : State) : (link s).cpsr = s.cpsr := State.writeReg_cpsr s 14 (s.pc + 4)

theorem link_systemKept (s : State) : SystemKept s (link s) :=
  ⟨State.writeReg_spsr s 14 _, State.writeReg_platform s 14 _, State.writeReg_boundary s 14 _⟩

theorem link_memoryKept (s : State) : MemoryKept s (link s) :=
  State.writeReg_readByte s 14 (s.pc + 4)

/-! ## The instructions, where their condition passes -/

section Instructions

variable {c : Cond} {s : State} {rm : Reg} (imm24 : BitVec 24)

theorem exec_b (hc : conditionPassed c s.cpsr = true) :
    exec (.b c imm24) s = branchTo (s.pc.toNat + 8 + 4 * imm24.toInt) 0xFFFFFFFC s := by
  show execB c imm24 s = _
  rw [execB, guarded_pass rfl hc, branchTarget_eq, Nat.cast_zero, add_zero]

theorem exec_bl (hc : conditionPassed c s.cpsr = true) :
    exec (.bl c imm24) s = branchTo (s.pc.toNat + 8 + 4 * imm24.toInt) 0xFFFFFFFC (link s) := by
  show execBl c imm24 s = _
  rw [execBl, guarded_pass rfl hc, branchTarget_eq, Nat.cast_zero, add_zero]

theorem exec_bx (hrm : rm ≠ 15) (hc : conditionPassed c s.cpsr = true) :
    exec (.bx c rm) s = exchange .bxMisaligned (s.readReg rm) s := by
  show execBx c rm s = _
  rw [execBx, guarded_pass (notR15_eq_none hrm) hc]

theorem exec_blxReg (hrm : rm ≠ 15) (hc : conditionPassed c s.cpsr = true) :
    exec (.blxReg c rm) s = exchange .blxMisaligned (s.readReg rm) (link s) := by
  show execBlxReg c rm s = _
  rw [execBlxReg, guarded_pass (notR15_eq_none hrm) hc]

/-- BLX with a label has no condition. -/
theorem exec_blxLabel (h : Bool) (s : State) :
    exec (.blxLabel h imm24) s =
      branchTo (s.pc.toNat + 8 + 4 * imm24.toInt + 2 * h.toNat) 0xFFFFFFFE
        { link s with cpsr := { s.cpsr with t := true } } := by
  show execBlxLabel h imm24 s = _
  simp only [execBlxLabel, link_cpsr, branchTarget_eq, Nat.cast_mul, Nat.cast_ofNat]

end Instructions

/-! ## The obligations -/

/-- Settles O30: a branch in range writes the pc, of the state before or of its link. -/
theorem branchEffect : Obligations.BranchEffect := by
  intro c imm24 s hc
  rw [exec_b imm24 hc, exec_bl imm24 hc]
  refine ⟨fun ⟨h0, hlast⟩ => ?_, fun hout => ⟨branchTo_wraps hout s, branchTo_wraps hout (link s)⟩⟩
  have hpc := toNat_ofInt_of_address h0 (by omega)
  exact ⟨⟨_, branchTo_of_range h0 hlast s, hpc, fun _ => rfl, rfl, ⟨rfl, rfl, rfl⟩, fun _ => rfl⟩,
    ⟨_, branchTo_of_range h0 hlast (link s), hpc, link_onlyReg s, link_cpsr s, link_systemKept s,
      link_memoryKept s⟩⟩

/-- Settles O31: an admitted target gives T and the pc, and BLX has read it before its link. -/
theorem exchangeEffect : Obligations.ExchangeEffect := by
  intro c rm s hrm hc
  rw [exec_bx hrm hc, exec_blxReg hrm hc]
  refine ⟨fun h => ?_, fun h => ⟨exchange_misaligned h _ s, exchange_misaligned h _ (link s)⟩⟩
  exact ⟨⟨_, exchange_of_admitted h _ s, rfl, rfl, fun _ => rfl, ⟨rfl, rfl, rfl⟩, fun _ => rfl⟩,
    ⟨_, exchange_of_admitted h _ (link s), rfl, by rw [link_cpsr], link_onlyReg s,
      link_systemKept s, link_memoryKept s⟩⟩

/-- Settles O32: in range the pc is the target, with the link and T set. -/
theorem blxLabelEffect : Obligations.BlxLabelEffect := by
  intro h imm24 s
  rw [exec_blxLabel]
  refine ⟨fun ⟨h0, hlast⟩ => ?_, fun hout => branchTo_wraps hout _⟩
  exact ⟨_, branchTo_of_range h0 hlast _, toNat_ofInt_of_address h0 (by omega), link_onlyReg s,
    rfl, link_systemKept s, link_memoryKept s⟩

end Sys2Proof.Machine
end

section
/-!
PROOFS. The table of conditions by their codes (41_conditional_execution.md rules R151, R152).
-/

namespace Sys2Proof.Machine

/-- Settles O12: an even code is its test as it stands, an odd code the test negated, where the
rows LS and LE are written with the negation moved inwards. -/
theorem conditionTable : Obligations.ConditionTable := by
  intro c p
  cases c with
  | eq | cs | mi | vs | hi | ge | al => exact (Bool.bne_false _).symm
  | ne | cc | pl | vc | lt => exact (Bool.bne_true _).symm
  | gt => exact (Bool.and_comm _ _).trans (Bool.bne_false _).symm
  | ls =>
    calc (!p.c || p.z)
      _ = !(p.c && !p.z) := by rw [Bool.not_and, Bool.not_not]
      _ = ((p.c && !p.z) != true) := (Bool.bne_true _).symm
  | le =>
    calc (p.z || p.n != p.v)
      _ = !(p.n == p.v && !p.z) := by rw [Bool.not_and, Bool.not_not, Bool.or_comm]; rfl
      _ = ((p.n == p.v && !p.z) != true) := (Bool.bne_true _).symm

end Sys2Proof.Machine
end

section
/-!
PROOFS. Operand2 (42_operand2_shifter.md): the immediate and its carry, the amounts of the low
byte of a register, and the values the shifter is given: O16, O18, O19 (rules R170, R171, R179 to
R184). The amounts from 1 to 31 are with O17.
-/

namespace Sys2Proof.Machine

/-! ## The amounts 0, 32 and more -/

/-- The amount 0 leaves the value, and C is the carry, whatever the shift type (rule R180). -/
theorem shiftByRegister_zero (v : Word) (sh : ShiftType) (c : Bool) :
    shiftByRegister v sh 0 c = ⟨v, c⟩ := by
  cases sh with
  | lsl | lsr | asr | ror => rfl

/-- LSL past 32 has pushed out the last bit of the value (rule R181). -/
theorem shiftLsl_of_ge (v : Word) {n : Nat} (c : Bool) (h : 33 ≤ n) :
    shiftLsl v n c = ⟨0, false⟩ := by
  rw [shiftLsl, if_neg (by omega), if_neg (by omega), if_neg (by omega)]

/-- LSR past 32 has pushed out the last bit of the value (rule R182). -/
theorem shiftLsr_of_ge (v : Word) {n : Nat} (c : Bool) (h : 33 ≤ n) :
    shiftLsr v n c = ⟨0, false⟩ := by
  rw [shiftLsr, if_neg (by omega), if_neg (by omega), if_neg (by omega)]

/-- ASR by 32 or more leaves only copies of the sign (rule R183). -/
theorem shiftAsr_of_ge (v : Word) {n : Nat} (c : Bool) (h : 32 ≤ n) :
    shiftAsr v n c =
      ⟨if v.getLsbD 31 = true then 0xFFFFFFFF else 0, v.getLsbD 31⟩ := by
  rw [shiftAsr, if_neg (by omega), if_neg (by omega)]

/-- ROR past 32 is ROR by 32 less: both amounts stand for the same one in 1 to 32 (rule R184). -/
theorem shiftRor_of_ge (v : Word) {n : Nat} (c : Bool) (h : 33 ≤ n) :
    shiftRor v n c = shiftRor v (n - 32) c := by
  have hturn : (n - 32 - 1) % 32 = (n - 1) % 32 := by omega
  simp only [shiftRor, if_neg (show n ≠ 0 by omega), if_neg (show n - 32 ≠ 0 by omega), hturn]

/-! ## The immediate, and the amount read -/

/-- Twice a field of four bits is less than 32, so that the rotation is the two shifts of
rule R171 by that amount itself. -/
theorem rotatedImmediate_eq (rotate : BitVec 4) (imm8 : BitVec 8) :
    rotatedImmediate rotate imm8 = ((imm8.setWidth 32 >>> (2 * rotate.toNat)) |||
      (imm8.setWidth 32 <<< (32 - 2 * rotate.toNat))) := by
  have hmod : 2 * rotate.toNat % 32 = 2 * rotate.toNat := Nat.mod_eq_of_lt (by omega)
  rw [rotatedImmediate, BitVec.rotateRight_def, hmod]

/-- The low byte of a register, as a number (rule R179). -/
theorem lowByte_toNat (v : Word) : (v.extractLsb' 0 8).toNat = v.toNat % 256 :=
  BitVec.extractLsb'_toNat 0 8 v

/-- Settles O19: the three forms are read off, with the low byte as a remainder and R15 by its
reading. -/
theorem shifterReads : Obligations.ShifterReads := by
  intro s code sh rs rm
  refine ⟨rfl, ?_, ?_⟩
  · rw [shifterOperand, lowByte_toNat]
  · rw [shifterOperand, State.readReg_fifteen]

end Sys2Proof.Machine

/- The obligations here have the names of the model's own functions in `Sys2Proof.Machine`. -/
namespace Sys2Proof.Laws.Operand2

open Sys2Proof.Machine

/-- Settles O16: the value as two shifts; the carry is defined on that same value. -/
theorem immediateOperand : Obligations.ImmediateOperand :=
  fun rotate imm8 _ => ⟨rotatedImmediate_eq rotate imm8, rfl⟩

/-- Settles O18, by ranges of the amount: 0, 1 to 31 as for an amount in the word, 32 by
evaluation, and more by the lemma of each shift type. -/
theorem shiftByRegister : Obligations.ShiftByRegister := by
  intro v n c
  refine ⟨fun sh => shiftByRegister_zero v sh c, fun h1 h31 => ?_, rfl, rfl, rfl,
    fun h33 => ⟨shiftLsl_of_ge v c h33, shiftLsr_of_ge v c h33, shiftRor_of_ge v c h33⟩,
    fun h32 => shiftAsr_of_ge v c h32⟩
  have h0 : n.toNat ≠ 0 := Nat.one_le_iff_ne_zero.mp h1
  obtain ⟨lslValue, lslCarry⟩ := shiftLsl_inRange v c h0 h31
  obtain ⟨lsrValue, lsrCarry⟩ := shiftLsr_inRange v c h0 h31
  obtain ⟨asrValue, asrCarry⟩ := shiftAsr_inRange v c h0 h31
  obtain ⟨rorValue, rorCarry⟩ := shiftRor_inRange v c h0 h31
  exact ⟨lslValue, lslCarry, lsrValue, lsrCarry, asrValue, asrCarry, rorValue, rorCarry⟩

end Sys2Proof.Laws.Operand2
end

section
/-!
PROOFS. Data processing: AddWithCarry, the sixteen operations as the rules write them, and what
the instructions do with a register, with no register and with R15 as destination: O20 to O26
(43_data_processing.md, rules R201 to R219; 60_exceptions.md, rule R342).
-/

namespace Sys2Proof.Machine

/-! ## Addition (rule R201) -/

theorem carryWord_toNat (c : Bool) : (carryWord c).toNat = c.toNat := by cases c <;> rfl

theorem carryWord_toInt (c : Bool) : (carryWord c).toInt = c.toNat := by cases c <;> rfl

theorem addWithCarry_toNat (a b : Word) (cin : Bool) :
    (addWithCarry a b cin).value.toNat = (a.toNat + b.toNat + cin.toNat) % 2 ^ 32 :=
  BitVec.toNat_ofNat _ _

theorem addWithCarry_value (a b : Word) (cin : Bool) :
    (addWithCarry a b cin).value = a + b + carryWord cin := by
  refine BitVec.eq_of_toNat_eq ?_
  rw [addWithCarry_toNat, BitVec.toNat_add, BitVec.toNat_add, carryWord_toNat, Nat.mod_add_mod]

/-- The sum of the words is the sum of the signed numbers, reduced to 32 bits. -/
theorem addWithCarry_toInt (a b : Word) (cin : Bool) :
    (addWithCarry a b cin).value.toInt = (a.toInt + b.toInt + cin.toNat).bmod (2 ^ 32) := by
  rw [addWithCarry_value, BitVec.toInt_add, BitVec.toInt_add, carryWord_toInt, Int.bmod_add_bmod]

/-- The signed sum overflows exactly if it is no 32-bit signed number. -/
theorem addWithCarry_overflow (a b : Word) (cin : Bool) :
    (addWithCarry a b cin).overflow = signedOverflow (a.toInt + b.toInt + cin.toNat) := by
  refine decide_eq_decide.mpr ?_
  change (addWithCarry a b cin).value.toInt ≠ _ ↔ _
  rw [addWithCarry_toInt, Int.bmod_def]
  omega

/-! ## Subtraction: the addition of the complement -/

theorem toInt_complement (b : Word) : (~~~b).toInt = -1 - b.toInt := by
  simp only [BitVec.toInt_eq_toNat_cond, BitVec.toNat_not]
  omega

/-- The complement is the negation less one. -/
theorem addWithCarry_not_value (a b : Word) (cin : Bool) :
    (addWithCarry a (~~~b) cin).value = a - b + carryWord cin - 1 := by
  rw [addWithCarry_value]
  bv_omega

theorem addWithCarry_not_carry (a b : Word) (cin : Bool) :
    (addWithCarry a (~~~b) cin).carry = decide (b.toNat + (1 - cin.toNat) ≤ a.toNat) := by
  refine decide_eq_decide.mpr ?_
  have hcin := cin.toNat_le
  rw [BitVec.toNat_not]
  omega

theorem addWithCarry_not_overflow (a b : Word) (cin : Bool) :
    (addWithCarry a (~~~b) cin).overflow =
      signedOverflow (a.toInt - b.toInt - (1 - cin.toNat)) := by
  rw [addWithCarry_overflow, toInt_complement]
  congr 1
  omega

/-- With the carry in set nothing is borrowed. -/
theorem addWithCarry_sub_value (a b : Word) : (addWithCarry a (~~~b) true).value = a - b :=
  (addWithCarry_not_value a b true).trans (BitVec.add_sub_cancel _ _)

theorem addWithCarry_sub_carry (a b : Word) :
    (addWithCarry a (~~~b) true).carry = decide (b.toNat ≤ a.toNat) :=
  addWithCarry_not_carry a b true

theorem addWithCarry_sub_overflow (a b : Word) :
    (addWithCarry a (~~~b) true).overflow = signedOverflow (a.toInt - b.toInt) :=
  (addWithCarry_not_overflow a b true).trans (congrArg signedOverflow (Int.sub_zero _))

/-! ## The sixteen operations as the rules write them -/

theorem aluOf_value (op : DpOp) (a b : Word) (sc c : Bool) :
    (aluOf op a b sc c).value = dpValue op a b c := by
  cases op with
  | and | eor | orr | bic | mov | mvn | tst | teq => rfl
  | add | cmn => exact (addWithCarry_value a b false).trans (BitVec.add_zero _)
  | adc => exact addWithCarry_value a b c
  | sub | cmp => exact addWithCarry_sub_value a b
  | rsb => exact addWithCarry_sub_value b a
  | sbc => exact addWithCarry_not_value a b c
  | rsc => exact addWithCarry_not_value b a c

theorem aluOf_carry (op : DpOp) (a b : Word) (sc c : Bool) :
    (aluOf op a b sc c).carry = dpCarry op a b sc c := by
  cases op with
  | and | eor | orr | bic | mov | mvn | tst | teq | add | adc | cmn => rfl
  | sub | cmp => exact addWithCarry_sub_carry a b
  | rsb => exact addWithCarry_sub_carry b a
  | sbc => exact addWithCarry_not_carry a b c
  | rsc => exact addWithCarry_not_carry b a c

/-- The logical class gives no V and keeps the old one. -/
theorem aluOf_overflow (op : DpOp) (a b : Word) (sc v c : Bool) :
    (aluOf op a b sc c).overflow.getD v = dpOverflow op a b v c := by
  cases op with
  | and | eor | orr | bic | mov | mvn | tst | teq => rfl
  | add | cmn =>
    exact (addWithCarry_overflow a b false).trans (congrArg signedOverflow (Int.add_zero _))
  | adc => exact addWithCarry_overflow a b c
  | sub | cmp => exact addWithCarry_sub_overflow a b
  | rsb => exact addWithCarry_sub_overflow b a
  | sbc => exact addWithCarry_not_overflow a b c
  | rsc => exact addWithCarry_not_overflow b a c

theorem DpView.out_value (d : DpView) (s : State) : (d.out s).value = d.result s :=
  aluOf_value ..

theorem DpView.setFlags_out (d : DpView) (s : State) : s.cpsr.setFlags (d.out s) = d.flags s := by
  rw [Cpsr.setFlags, DpView.out_value, DpView.out, aluOf_carry, aluOf_overflow, DpView.flags]

/-! ## R15 as destination -/

/-- R15 as destination without S: a branch to the result (rule R203). -/
theorem writeResult_branch (o : AluOut) (s : State) :
    writeResult false 15 o s =
      if o.value.extractLsb' 0 2 = 0 then .next { s with pc := o.value }
      else .refused .misalignedPcWrite := rfl

/-- R15 as destination with S: the return from an exception (rule R203). -/
theorem writeResult_return (o : AluOut) (s : State) :
    writeResult true 15 o s = returnFromException o.value s := rfl

/-! ## The instructions, where their condition passes -/

section Instructions

variable {i : Instr} {d : DpView} {s : State}

theorem exec_dp_compare (hd : dpView i = some d) (hop : isCompare d.op = true)
    (hr : d.operand.restriction d.rn d.rd = none) (hc : conditionPassed d.c s.cpsr = true) :
    exec i s = advance (s.setFlags true (d.out s)) := by
  rw [exec_of_dpView hd, guarded_pass hr hc, hop, cond_true]

theorem exec_dp_writeResult (hd : dpView i = some d) (hop : isCompare d.op = false)
    (hr : d.operand.restriction d.rn d.rd = none) (hc : conditionPassed d.c s.cpsr = true) :
    exec i s = writeResult d.sf d.rd (d.out s) s := by
  rw [exec_of_dpView hd, guarded_pass hr hc, hop, cond_false]

/-- What the operations with a destination do to a register: the result, with S the flags, and
nothing else but the pc (rule R202). -/
theorem exec_dp_register (hd : dpView i = some d) (hop : isCompare d.op = false)
    (hr : d.operand.restriction d.rn d.rd = none) (hc : conditionPassed d.c s.cpsr = true)
    (hrd : d.rd ≠ 15) (hnext : s.HasNext) :
    ∃ t, exec i s = .next t ∧ t.pc = s.pc + 4 ∧ OnlyReg s t d.rd (d.result s) ∧
      t.cpsr = (if d.sf = true then d.flags s else s.cpsr) ∧ SystemKept s t ∧ MemoryKept s t := by
  have hexec := (exec_dp_writeResult hd hop hr hc).trans (writeResult_reg hrd hnext)
  refine ⟨_, hexec, rfl, fun p => ?_, ?_, ?_, fun a => ?_⟩
  · rw [State.reg_with_pc, State.setFlags_reg, State.reg_writeReg, DpView.out_value]
  · change ((s.writeReg d.rd (d.out s).value).setFlags d.sf (d.out s)).cpsr = _
    rw [State.setFlags_cpsr, State.writeReg_cpsr, DpView.setFlags_out]
  · simp [SystemKept]
  · rw [State.readByte_with_pc, State.setFlags_readByte, State.writeReg_readByte]

end Instructions

/-! ## The return from an exception (rules R203, R342) -/

/-- Whether a return address is aligned for the state restored: a halfword with T, else a
word. -/
def returnAligned (t : Bool) (target : Word) : Bool :=
  if t = true then !target.getLsbD 0 else target.extractLsb' 0 2 == 0

/-- The CPSR of an SPSR whose mode is legal. -/
def Spsr.restored (p : Spsr) (m : Mode) : Cpsr :=
  { n := p.n, z := p.z, c := p.c, v := p.v, i := p.i, f := p.f, t := p.t, mode := m }

theorem Spsr.restored_toWord {p : Spsr} {m : Mode} (h : Mode.ofBits p.m = some m) :
    (p.restored m).toWord = p.toWord := by
  rw [Cpsr.toWord, Spsr.toWord, Spsr.restored, Mode.toBits_of_ofBits h]

section Return

variable {s : State} {e : ExcMode} (target : Word)

theorem returnFromException_of_no_spsr (h : s.cpsr.mode = .usr ∨ s.cpsr.mode = .sys) :
    returnFromException target s = .refused .returnWithoutSpsr := by
  have hexc : s.cpsr.mode.exc = none := by rcases h with h | h <;> rw [h] <;> rfl
  rw [returnFromException, hexc]

theorem returnFromException_of_illegal (he : s.cpsr.mode = e.toMode)
    (hm : Mode.ofBits (s.spsr.get e).m = none) :
    returnFromException target s = .refused .illegalModeRestored := by
  simp only [returnFromException, he, Mode.exc_toMode, Cpsr.ofSpsr, hm]

/-- Where the mode restored is legal, only the alignment of the target is left to check. -/
theorem returnFromException_of_legal {m : Mode} (he : s.cpsr.mode = e.toMode)
    (hm : Mode.ofBits (s.spsr.get e).m = some m) :
    returnFromException target s =
      if returnAligned (s.spsr.get e).t target = true then
        .next { s with cpsr := (s.spsr.get e).restored m, pc := target }
      else .refused .misalignedReturn := by
  simp only [returnFromException, he, Mode.exc_toMode, Cpsr.ofSpsr, hm, returnAligned]
  cases ht : (s.spsr.get e).t with
  | false => simp [Spsr.restored, ht]
  | true => cases hbit : target[0] <;> simp [Spsr.restored, ht, hbit]

end Return

end Sys2Proof.Machine

/- `AddWithCarry` has the name of the model's own function in `Sys2Proof.Machine`. -/
namespace Sys2Proof.Laws.DataProcessing

open Sys2Proof.Machine

/-- Settles O20: the sums are exact before they are narrowed, and a subtraction is the addition
of the complement. -/
theorem addWithCarry : Obligations.AddWithCarry := fun a b cin =>
  ⟨addWithCarry_toNat a b cin, decide_eq_true_iff, decide_eq_true_iff,
    addWithCarry_sub_value a b, by rw [addWithCarry_sub_carry, decide_eq_true_iff]⟩

/-- Settles O21: the four operations are among those with a destination. -/
theorem logicalEffect : Obligations.LogicalEffect := fun _ d _ hd hmem =>
  have hop : ∀ op ∈ [DpOp.and, .eor, .orr, .bic], isCompare op = false := by decide
  exec_dp_register hd (hop d.op hmem)

/-- Settles O22: the six operations are among those with a destination. -/
theorem arithmeticEffect : Obligations.ArithmeticEffect := fun _ d _ hd hmem =>
  have hop : ∀ op ∈ [DpOp.sub, .rsb, .add, .adc, .sbc, .rsc], isCompare op = false := by decide
  exec_dp_register hd (hop d.op hmem)

/-- Settles O23: both operations are among those with a destination. -/
theorem moveEffect : Obligations.MoveEffect := fun _ d _ hd hmem =>
  have hop : ∀ op ∈ [DpOp.mov, .mvn], isCompare op = false := by decide
  exec_dp_register hd (hop d.op hmem)

/-- Settles O24: the flags and the pc are written and nothing else. -/
theorem compareEffect : Obligations.CompareEffect := by
  intro i d s hd hop hr hc hnext
  have hexec := (exec_dp_compare hd hop hr hc).trans (advance_of_lt (by rwa [State.setFlags_pc]))
  refine ⟨_, hexec, ?_, fun p => ?_, ?_, ?_, fun a => ?_⟩
  · simp
  · simp
  · change (s.setFlags true (d.out s)).cpsr = _
    rw [State.setFlags_cpsr, if_pos rfl, DpView.setFlags_out]
  · simp [SystemKept]
  · simp

/-- Settles O25: writeResult without S branches to the result or refuses it. -/
theorem dataProcessingBranch : Obligations.DataProcessingBranch := by
  intro i d s hd hop hr hc hrd hsf
  rw [exec_dp_writeResult hd hop hr hc, hrd, hsf, writeResult_branch, DpView.out_value]
  exact ⟨fun h => ⟨_, if_pos h, rfl, fun _ => rfl, rfl, ⟨rfl, rfl, rfl⟩, fun _ => rfl⟩,
    fun h => if_neg h⟩

/-- Settles O26: writeResult with S is `returnFromException` of the result, check by check. -/
theorem exceptionReturn : Obligations.ExceptionReturn := by
  intro i d s hd hop hr hc hrd hsf
  rw [exec_dp_writeResult hd hop hr hc, hrd, hsf, writeResult_return, DpView.out_value]
  refine ⟨returnFromException_of_no_spsr _, fun e he =>
    ⟨returnFromException_of_illegal _ he, fun m hm => ?_⟩⟩
  rw [returnFromException_of_legal _ he hm]
  exact ⟨fun h => if_neg (Bool.eq_false_iff.mp h), fun h =>
    ⟨_, if_pos h, rfl, Spsr.restored_toWord hm, rfl, fun _ => rfl, ⟨rfl, rfl, rfl⟩, fun _ => rfl⟩⟩

end Sys2Proof.Laws.DataProcessing
end

section
/-!
PROOFS. The multiplies: O27, O28 and O29 (44_multiply.md, rules R251 to R258).
-/

namespace Sys2Proof.Machine

/-! ## Two registers written, and the pc moved on -/

/-- What a register reads after a write of two: the order does not matter where they differ. -/
theorem State.reg_writeReg_writeReg (s : State) {i j : Reg} (hi : i ≠ 15) (hij : i ≠ j)
    (v w : Word) (q : PhysReg) :
    ((s.writeReg i v).writeReg j w).reg q =
      if visible s.cpsr.mode i = some q then v
      else if visible s.cpsr.mode j = some q then w else s.reg q := by
  rw [State.reg_writeReg, State.writeReg_cpsr, State.reg_writeReg]
  by_cases h : visible s.cpsr.mode i = some q
  · have hj : visible s.cpsr.mode j ≠ some q := fun hj => hij (visible_inj hi (h.trans hj.symm))
    rw [if_neg hj, if_pos h, if_pos h]
  · rw [if_neg h, if_neg h]

/-- The successor of a state whose pc has not moved since `s`. -/
theorem advance_of_pc_eq {s u : State} (hpc : u.pc = s.pc) (hnext : s.HasNext) :
    advance u = .next { u with pc := s.pc + 4 } := by
  rw [← hpc]
  exact advance_of_lt (by rwa [hpc])

/-! ## The rows of rule R257 -/

section Rows

variable {rd rn rdHi rdLo rs rm : Reg}

theorem mulRestriction_multiplyR15 (h : rd = 15 ∨ rn = 15 ∨ rs = 15 ∨ rm = 15) :
    mulRestriction rd rn rs rm = some .multiplyR15 := if_pos h

theorem mulRestriction_multiplyRdRm (h15 : ¬ (rd = 15 ∨ rn = 15 ∨ rs = 15 ∨ rm = 15))
    (h : rd = rm) : mulRestriction rd rn rs rm = some .multiplyRdRm := by
  rw [mulRestriction, if_neg h15, if_pos h]

theorem mullRestriction_multiplyR15 (h : rdHi = 15 ∨ rdLo = 15 ∨ rs = 15 ∨ rm = 15) :
    mullRestriction rdHi rdLo rs rm = some .multiplyR15 := if_pos h

theorem mullRestriction_longMultiplyRegs (h15 : ¬ (rdHi = 15 ∨ rdLo = 15 ∨ rs = 15 ∨ rm = 15))
    (h : rdHi = rdLo ∨ rdHi = rm ∨ rdLo = rm) :
    mullRestriction rdHi rdLo rs rm = some .longMultiplyRegs := by
  rw [mullRestriction, if_neg h15, if_pos h]

end Rows

theorem mul_refuses {rd rs rm : Reg} {why : Restriction}
    (h : mulRestriction rd 0 rs rm = some why) (c : Cond) (sf : Bool) :
    Refuses (.mul c sf rd rs rm) why := refuses_of_restriction h

theorem mla_refuses {rd rn rs rm : Reg} {why : Restriction}
    (h : mulRestriction rd rn rs rm = some why) (c : Cond) (sf : Bool) :
    Refuses (.mla c sf rd rn rs rm) why := refuses_of_restriction h

/-- The four long multiplies ask the same restriction, so they are refused under one name. -/
theorem longMultiplies_refuse {rdHi rdLo rs rm : Reg} {why : Restriction}
    (h : mullRestriction rdHi rdLo rs rm = some why) (c : Cond) (sf : Bool) :
    Refuses (.umull c sf rdHi rdLo rs rm) why ∧ Refuses (.umlal c sf rdHi rdLo rs rm) why ∧
    Refuses (.smull c sf rdHi rdLo rs rm) why ∧ Refuses (.smlal c sf rdHi rdLo rs rm) why :=
  ⟨refuses_of_restriction h, refuses_of_restriction h, refuses_of_restriction h,
    refuses_of_restriction h⟩

/-! ## Products and sums modulo 2^32 and 2^64 -/

/-- The sum of naturals, narrowed to a word, is the sum of words. -/
theorem ofNat_product_add (a b x : Word) :
    BitVec.ofNat 32 (a.toNat * b.toNat + x.toNat) = a * b + x := by
  rw [BitVec.ofNat_add, BitVec.ofNat_mul]
  simp only [BitVec.ofNat_toNat, BitVec.setWidth_eq]

theorem unsignedProduct_eq (a b : Word) :
    unsignedProduct a b = BitVec.ofInt 64 (a.toNat * b.toNat) := by
  rw [unsignedProduct, ← Nat.cast_mul, BitVec.ofInt_natCast]

theorem accumulator_eq (rdHi rdLo : Reg) (s : State) :
    accumulator rdHi rdLo s =
      BitVec.ofInt 64 ((s.readReg rdHi).toNat * 2 ^ 32 + (s.readReg rdLo).toNat) := by
  apply BitVec.eq_of_toNat_eq
  have hlo := (s.readReg rdLo).isLt
  rw [accumulator, BitVec.toNat_append, ← Nat.shiftLeft_add_eq_or_of_lt hlo, Nat.shiftLeft_eq,
    BitVec.toNat_ofInt]
  omega

/-! ## The six instructions by their shared meanings -/

section Instructions

variable (c : Cond) (sf : Bool) (rd rn rdHi rdLo rs rm : Reg) (s : State)

theorem exec_mul : exec (.mul c sf rd rs rm) s =
    multiply (mulRestriction rd 0 rs rm) c sf rd rs rm (fun _ => 0) s := rfl

theorem exec_mla : exec (.mla c sf rd rn rs rm) s =
    multiply (mulRestriction rd rn rs rm) c sf rd rs rm (fun s => s.readReg rn) s := rfl

theorem exec_umull : exec (.umull c sf rdHi rdLo rs rm) s =
    longMultiply unsignedProduct c sf rdHi rdLo rs rm (fun _ => 0) s := rfl

theorem exec_umlal : exec (.umlal c sf rdHi rdLo rs rm) s =
    longMultiply unsignedProduct c sf rdHi rdLo rs rm (accumulator rdHi rdLo) s := rfl

theorem exec_smull : exec (.smull c sf rdHi rdLo rs rm) s =
    longMultiply signedProduct c sf rdHi rdLo rs rm (fun _ => 0) s := rfl

theorem exec_smlal : exec (.smlal c sf rdHi rdLo rs rm) s =
    longMultiply signedProduct c sf rdHi rdLo rs rm (accumulator rdHi rdLo) s := rfl

end Instructions

/-! ## What a multiply does, where its condition passes -/

section Completion

variable {c : Cond} {sf : Bool} {s : State}

/-- Rd and the flags are written, then the pc moves on. -/
theorem multiply_pass {r : Option Restriction} {rd rs rm : Reg} {acc : State → Word} {v : Word}
    (hr : r = none) (hc : conditionPassed c s.cpsr = true) (hrd : rd ≠ 15) (hnext : s.HasNext)
    (hv : s.readReg rm * s.readReg rs + acc s = v) :
    multiply r c sf rd rs rm acc s =
      .next { (s.writeReg rd v).setMulFlags sf v with pc := s.pc + 4 } := by
  rw [multiply, guarded_pass hr hc, ofNat_product_add, hv]
  exact advance_of_pc_eq (by rw [State.setMulFlags_pc, State.writeReg_pc s v hrd]) hnext

/-- A multiply completes with the product plus `acc` in Rd, and with S its flags. -/
theorem multiply_completes {r : Option Restriction} {rd rs rm : Reg} {acc : State → Word} {v : Word}
    (hr : r = none) (hc : conditionPassed c s.cpsr = true) (hrd : rd ≠ 15) (hnext : s.HasNext)
    (hv : s.readReg rm * s.readReg rs + acc s = v) :
    ∃ t, multiply r c sf rd rs rm acc s = .next t ∧ t.pc = s.pc + 4 ∧ OnlyReg s t rd v ∧
      t.cpsr = (if sf = true then
        { s.cpsr with n := v.getLsbD 31, z := decide (v = 0), c := t.cpsr.c } else s.cpsr) ∧
      SystemKept s t ∧ MemoryKept s t := by
  refine ⟨_, multiply_pass hr hc hrd hnext hv, rfl, fun p => ?_, ?_, ?_, fun a => ?_⟩
  · rw [State.reg_with_pc, State.setMulFlags_reg, State.reg_writeReg]
  · dsimp only
    rw [State.setMulFlags_cpsr, State.writeReg_cpsr]
    cases sf <;> rfl
  · simp [SystemKept]
  · rw [State.readByte_with_pc, State.setMulFlags_readByte, State.writeReg_readByte]

/-- RdHi, RdLo and the flags are written, then the pc moves on. -/
theorem longMultiply_pass {p : Word → Word → BitVec 64} {rdHi rdLo rs rm : Reg}
    {acc : State → BitVec 64} {v : BitVec 64} (hr : mullRestriction rdHi rdLo rs rm = none)
    (hc : conditionPassed c s.cpsr = true) (hnext : s.HasNext)
    (hv : p (s.readReg rm) (s.readReg rs) + acc s = v) :
    longMultiply p c sf rdHi rdLo rs rm acc s =
      .next { ((s.writeReg rdHi (v.extractLsb' 32 32)).writeReg rdLo
        (v.extractLsb' 0 32)).setLongFlags sf v with pc := s.pc + 4 } := by
  obtain ⟨hhi, hlo⟩ := mullRestriction_none_rd hr
  rw [longMultiply, guarded_pass hr hc, hv]
  exact advance_of_pc_eq
    (by rw [State.setLongFlags_pc, State.writeReg_pc _ _ hlo, State.writeReg_pc _ _ hhi]) hnext

/-- A long multiply completes with the integer `x`, modulo 2^64, in RdHi and RdLo, and with S
its flags. -/
theorem longMultiply_completes {p : Word → Word → BitVec 64} {rdHi rdLo rs rm : Reg}
    {acc : State → BitVec 64} {x : Int} (hr : mullRestriction rdHi rdLo rs rm = none)
    (hc : conditionPassed c s.cpsr = true) (hregs : rdHi ≠ rdLo) (hnext : s.HasNext)
    (hx : p (s.readReg rm) (s.readReg rs) + acc s = BitVec.ofInt 64 x) :
    ∃ t, ∃ v : BitVec 64, longMultiply p c sf rdHi rdLo rs rm acc s = .next t ∧
      (v.toNat : Int) = x % 2 ^ 64 ∧ t.pc = s.pc + 4 ∧
      (∀ q, t.reg q = if visible s.cpsr.mode rdHi = some q then v.extractLsb' 32 32
        else if visible s.cpsr.mode rdLo = some q then v.extractLsb' 0 32 else s.reg q) ∧
      t.cpsr = (if sf = true then
        { s.cpsr with n := v.getLsbD 63, z := decide (v = 0), c := t.cpsr.c, v := t.cpsr.v }
        else s.cpsr) ∧
      SystemKept s t ∧ MemoryKept s t := by
  obtain ⟨hhi, -⟩ := mullRestriction_none_rd hr
  refine ⟨_, BitVec.ofInt 64 x, longMultiply_pass hr hc hnext hx, ?_, rfl, fun q => ?_, ?_, ?_,
    fun a => ?_⟩
  · rw [BitVec.toNat_ofInt]
    omega
  · rw [State.reg_with_pc, State.setLongFlags_reg, State.reg_writeReg_writeReg s hhi hregs]
  · dsimp only
    rw [State.setLongFlags_cpsr, State.writeReg_cpsr, State.writeReg_cpsr]
    cases sf <;> rfl
  · simp [SystemKept]
  · rw [State.readByte_with_pc, State.setLongFlags_readByte, State.writeReg_readByte,
      State.writeReg_readByte]

end Completion

/-! ## The obligations -/

/-- Settles O27: MUL is the multiply that adds zero, MLA the one that adds Rn. -/
theorem multiplyEffect : Obligations.MultiplyEffect := by
  intro c sf rd rn rs rm s hrd hrn hrs hrm hrdrm hc hnext
  rw [exec_mul, exec_mla]
  exact ⟨multiply_completes (mulRestriction_eq_none hrd (by decide) hrs hrm hrdrm) hc hrd hnext
      (BitVec.add_zero _),
    multiply_completes (mulRestriction_eq_none hrd hrn hrs hrm hrdrm) hc hrd hnext rfl⟩

/-- Settles O28: each long multiply is its product plus its accumulator, exact as an integer
before it is narrowed to 64 bits. -/
theorem longMultiplyEffect : Obligations.LongMultiplyEffect := by
  intro c sf rdHi rdLo rs rm s hhi hlo hrs hrm hregs hhim hlom hc hnext acc unsigned signed
  have hr := mullRestriction_eq_none hhi hlo hrs hrm hregs hhim hlom
  have hacc : accumulator rdHi rdLo s = BitVec.ofInt 64 acc := accumulator_eq rdHi rdLo s
  have hunsigned : unsignedProduct (s.readReg rm) (s.readReg rs) = BitVec.ofInt 64 unsigned :=
    unsignedProduct_eq _ _
  have hsigned : signedProduct (s.readReg rm) (s.readReg rs) = BitVec.ofInt 64 signed := rfl
  simp only [List.forall_mem_cons, List.not_mem_nil, false_imp_iff, implies_true, and_true,
    exec_umull, exec_umlal, exec_smull, exec_smlal]
  refine ⟨?umull, ?umlal, ?smull, ?smlal⟩
  case umull =>
    exact longMultiply_completes hr hc hregs hnext ((BitVec.add_zero _).trans hunsigned)
  case umlal =>
    exact longMultiply_completes hr hc hregs hnext (by rw [hunsigned, hacc, ← BitVec.ofInt_add])
  case smull =>
    exact longMultiply_completes hr hc hregs hnext ((BitVec.add_zero _).trans hsigned)
  case smlal =>
    exact longMultiply_completes hr hc hregs hnext (by rw [hsigned, hacc, ← BitVec.ofInt_add])

/-- Settles O29, row by row: R15 first, then the registers that must differ (log 18). -/
theorem multiplyRestrictions : Obligations.MultiplyRestrictions := by
  intro c sf a b rs rm s
  refine ⟨fun h15 => ?_, fun h15 => ?_, fun h15 => ⟨fun ham => ⟨?_, ?_⟩, fun hsame => ?_⟩⟩
  · obtain ⟨humull, humlal, hsmull, hsmlal⟩ :=
      longMultiplies_refuse (mullRestriction_multiplyR15 h15) c sf
    exact ⟨mla_refuses (mulRestriction_multiplyR15 h15) c sf s, humull s, humlal s, hsmull s,
      hsmlal s⟩
  · exact mul_refuses (mulRestriction_multiplyR15 (by tauto)) c sf s
  · have hmul15 : ¬ (a = 15 ∨ (0 : Reg) = 15 ∨ rs = 15 ∨ rm = 15) := by
      have h0 : (0 : Reg) ≠ 15 := by decide
      tauto
    exact mul_refuses (mulRestriction_multiplyRdRm hmul15 ham) c sf s
  · exact mla_refuses (mulRestriction_multiplyRdRm h15 ham) c sf s
  · obtain ⟨humull, humlal, hsmull, hsmlal⟩ :=
      longMultiplies_refuse (mullRestriction_longMultiplyRegs h15 hsame) c sf
    exact ⟨humull s, humlal s, hsmull s, hsmlal s⟩

end Sys2Proof.Machine
end

section
/-!
PROOFS. The status-register transfers: O33 to O36, and O57 (45_status_register_transfer.md,
rules R271 to R276; 60_exceptions.md rule R350).
-/

namespace Sys2Proof.Machine

/-! ## A masked write of a word (rule R274) -/

/-- `new` in the bits of `mask`, `old` in the others. -/
def maskedWrite (mask old new : Word) : Word := (old &&& ~~~mask) ||| (new &&& mask)

theorem maskedWrite_getLsbD (mask old new : Word) (k : Nat) :
    (maskedWrite mask old new).getLsbD k =
      if mask.getLsbD k = true then new.getLsbD k else old.getLsbD k := by
  rw [maskedWrite, BitVec.getLsbD_or, BitVec.getLsbD_and, BitVec.getLsbD_and, BitVec.getLsbD_not]
  by_cases hk : k < 32
  · cases mask.getLsbD k <;> simp [hk]
  · simp [BitVec.getLsbD_of_ge _ k (Nat.le_of_not_lt hk)]

/-- A word that is `new` in the bits of `mask` and `old` in the others is the masked write. -/
theorem eq_maskedWrite {x mask old new : Word}
    (h : ∀ k < 32, x.getLsbD k = if mask.getLsbD k = true then new.getLsbD k else old.getLsbD k) :
    x = maskedWrite mask old new :=
  BitVec.eq_of_getLsbD_eq fun k hk => (h k hk).trans (maskedWrite_getLsbD mask old new k).symm

theorem maskedWrite_zero (old new : Word) : maskedWrite 0 old new = old :=
  (eq_maskedWrite fun _ _ => by simp).symm

/-- Two writes of one operand are a write under both masks. -/
theorem maskedWrite_maskedWrite (m n old new : Word) :
    maskedWrite n (maskedWrite m old new) new = maskedWrite (m ||| n) old new := by
  refine eq_maskedWrite fun k _ => ?_
  rw [maskedWrite_getLsbD, maskedWrite_getLsbD, BitVec.getLsbD_or]
  cases m.getLsbD k <;> cases n.getLsbD k <;> rfl

/-- A write that is made only under a condition is a write under no mask elsewhere. -/
theorem maskedWrite_ite (b : Bool) (mask old new : Word) :
    maskedWrite (if b = true then mask else 0) old new =
      if b = true then maskedWrite mask old new else old := by
  cases b
  · exact maskedWrite_zero old new
  · rfl

/-! ## The two bytes of a status register (rules R30, R274) -/

section Bytes

variable (n z c v i f t : Bool) (m : BitVec 5) (w : Word)

/-- The flag byte. -/
theorem psrWord_writeFlags :
    psrWord (w.getLsbD 31) (w.getLsbD 30) (w.getLsbD 29) (w.getLsbD 28) i f t m =
      maskedWrite 0xF0000000 (psrWord n z c v i f t m) w := by
  refine eq_maskedWrite fun k hk => ?_
  rw [psrWord_getLsbD _ _ _ _ _ _ _ _ hk, psrWord_getLsbD _ _ _ _ _ _ _ _ hk]
  interval_cases k <;> rfl

/-- The control byte. -/
theorem psrWord_writeControl :
    psrWord n z c v (w.getLsbD 7) (w.getLsbD 6) (w.getLsbD 5) (w.extractLsb' 0 5) =
      maskedWrite 0xFF (psrWord n z c v i f t m) w := by
  refine eq_maskedWrite fun k hk => ?_
  rw [psrWord_getLsbD _ _ _ _ _ _ _ _ hk, psrWord_getLsbD _ _ _ _ _ _ _ _ hk]
  interval_cases k <;> simp

/-- The control byte but T. -/
theorem psrWord_writeControl_keepT :
    psrWord n z c v (w.getLsbD 7) (w.getLsbD 6) t (w.extractLsb' 0 5) =
      maskedWrite 0xDF (psrWord n z c v i f t m) w := by
  refine eq_maskedWrite fun k hk => ?_
  rw [psrWord_getLsbD _ _ _ _ _ _ _ _ hk, psrWord_getLsbD _ _ _ _ _ _ _ _ hk]
  interval_cases k <;> simp

end Bytes

/-- Of the bytes a field mask names, the writable bits: only the first and the last hold any. -/
theorem byteMask_writable (mask : BitVec 4) :
    byteMask mask &&& 0xF0000000 = (if mask.getLsbD 3 = true then 0xF0000000 else 0) ∧
    byteMask mask &&& 0xF00000DF =
      (if mask.getLsbD 3 = true then 0xF0000000 else 0) |||
        (if mask.getLsbD 0 = true then 0xDF else 0) ∧
    byteMask mask &&& 0xF00000FF =
      (if mask.getLsbD 3 = true then 0xF0000000 else 0) |||
        (if mask.getLsbD 0 = true then 0xFF else 0) := by
  revert mask
  decide

/-! ## The SPSR a mode has or has not (rule R40) -/

theorem Mode.exc_eq_none {m : Mode} (h : m = .usr ∨ m = .sys) : m.exc = none := by
  rcases h with rfl | rfl <;> rfl

theorem Mode.exc_eq_some {m : Mode} {e : ExcMode} (h : m = e.toMode) : m.exc = some e := by
  rw [h, Mode.exc_toMode]

/-! ## MRS (rule R271) -/

section Mrs

variable {c : Cond} {psr : PsrSel} {rd : Reg} {s : State}

theorem exec_mrs (hrd : rd ≠ 15) (hc : conditionPassed c s.cpsr = true) :
    exec (.mrs c psr rd) s =
      match readPsr psr s with
      | none => .refused .noSpsr
      | some v => advance (s.writeReg rd v) := by
  show execMrs c psr rd s = _
  exact guarded_pass (notR15_eq_none hrd) hc

/-- MRS completes with the status register it reads in Rd. -/
theorem exec_mrs_completes (hrd : rd ≠ 15) (hc : conditionPassed c s.cpsr = true)
    (hnext : s.HasNext) {v : Word} (hread : readPsr psr s = some v) :
    ∃ t, exec (.mrs c psr rd) s = .next t ∧ t.pc = s.pc + 4 ∧ OnlyReg s t rd v ∧
      t.cpsr = s.cpsr ∧ SystemKept s t ∧ MemoryKept s t := by
  rw [exec_mrs hrd hc, hread]
  refine ⟨_, advance_of_pc_eq (State.writeReg_pc s v hrd) hnext, rfl, State.reg_writeReg s rd v,
    State.writeReg_cpsr s rd v, ?_, State.writeReg_readByte s rd v⟩
  exact ⟨State.writeReg_spsr s rd v, State.writeReg_platform s rd v, State.writeReg_boundary s rd v⟩

end Mrs

/-- Settles O33: what MRS reads is written, or there is none to read. -/
theorem mrsEffect : Obligations.MrsEffect := by
  intro c rd s hrd hc hnext
  refine ⟨exec_mrs_completes hrd hc hnext rfl, fun e he => exec_mrs_completes hrd hc hnext ?_,
    fun hmode => ?_⟩
  · rw [readPsr, Mode.exc_eq_some he]
  · rw [exec_mrs hrd hc, readPsr, Mode.exc_eq_none hmode]

/-! ## The writes of MSR as masked writes (rule R274) -/

theorem Cpsr.writeFlags_toWord (p : Cpsr) (v : Word) :
    (p.writeFlags v).toWord = maskedWrite 0xF0000000 p.toWord v := psrWord_writeFlags ..

theorem Spsr.writeFlags_toWord (p : Spsr) (v : Word) :
    (p.writeFlags v).toWord = maskedWrite 0xF0000000 p.toWord v := psrWord_writeFlags ..

theorem Spsr.writeControl_toWord (p : Spsr) (v : Word) :
    (p.writeControl v).toWord = maskedWrite 0xFF p.toWord v := psrWord_writeControl ..

/-- A legal mode is written as the bits of the operand. -/
theorem Cpsr.writeControl_toWord (p : Cpsr) {v : Word} {m : Mode}
    (hm : Mode.ofBits (v.extractLsb' 0 5) = some m) :
    (p.writeControl v m).toWord = maskedWrite 0xDF p.toWord v := by
  rw [Cpsr.toWord, Cpsr.writeControl, Mode.toBits_of_ofBits hm]
  exact psrWord_writeControl_keepT ..

/-- The flag byte of the CPSR, where the field mask names it. -/
theorem Cpsr.flagged_toWord (mask : BitVec 4) (p : Cpsr) (v : Word) :
    (if mask.getLsbD 3 = true then p.writeFlags v else p).toWord =
      maskedWrite (if mask.getLsbD 3 = true then 0xF0000000 else 0) p.toWord v := by
  rw [apply_ite Cpsr.toWord, Cpsr.writeFlags_toWord, maskedWrite_ite]

theorem Spsr.flagged_toWord (mask : BitVec 4) (p : Spsr) (v : Word) :
    (if mask.getLsbD 3 = true then p.writeFlags v else p).toWord =
      maskedWrite (if mask.getLsbD 3 = true then 0xF0000000 else 0) p.toWord v := by
  rw [apply_ite Spsr.toWord, Spsr.writeFlags_toWord, maskedWrite_ite]

/-! ## MSR, the write common to both forms -/

section Msr

variable {c : Cond} {psr : PsrSel} {mask rotate : BitVec 4} {imm8 : BitVec 8} {rm : Reg}
  {s : State} {v : Word} {e : ExcMode}

/-- The two ways of asking for the reserved bits agree. -/
theorem reserved_eq_zero_iff : v &&& 0x0FFFFF00 = 0 ↔ v.extractLsb' 8 20 = 0 :=
  and_placeMask_eq (lo := 8) (v := (0 : BitVec 20)) (by decide)

theorem msrWrite_reserved (h : v &&& 0x0FFFFF00 ≠ 0) :
    msrWrite psr mask v s = .refused .msrReservedBits :=
  if_pos (mt reserved_eq_zero_iff.mpr h)

theorem msrWrite_cpsr (h : v &&& 0x0FFFFF00 = 0) :
    msrWrite .cpsr mask v s = msrCpsr mask v s :=
  if_neg (not_not.mpr (reserved_eq_zero_iff.mp h))

theorem msrWrite_spsr (h : v &&& 0x0FFFFF00 = 0) :
    msrWrite .spsr mask v s = msrSpsr mask v s :=
  if_neg (not_not.mpr (reserved_eq_zero_iff.mp h))

/-- Both forms of MSR, where their condition passes: the write of their operand. -/
theorem exec_msr {row : Instr × Word} (hrm : rm ≠ 15) (hc : conditionPassed c s.cpsr = true)
    (hrow : row ∈ [(Instr.msrImm c psr mask rotate imm8, rotatedImmediate rotate imm8),
      (.msrReg c psr mask rm, s.readReg rm)]) :
    exec row.1 s = msrWrite psr mask row.2 s := by
  rcases List.mem_pair.mp hrow with rfl | rfl
  · show execMsrImm c psr mask rotate imm8 s = _
    exact guarded_pass rfl hc
  · show execMsrReg c psr mask rm s = _
    exact guarded_pass (notR15_eq_none hrm) hc

/-! ### The CPSR -/

theorem privileged_of_ne_usr {m : Mode} (h : m ≠ .usr) : m.privileged = true := bne_iff_ne.mpr h

/-- In User mode, or where the mask does not name the control byte, there is nothing to check. -/
theorem msrCpsr_flags (h : s.cpsr.mode = .usr ∨ mask.getLsbD 0 = false) :
    msrCpsr mask v s =
      advance { s with
        cpsr := if mask.getLsbD 3 = true then s.cpsr.writeFlags v else s.cpsr } := by
  refine if_neg fun ⟨hpriv, hctl⟩ => ?_
  rcases h with hmode | hmask
  · rw [hmode] at hpriv
    exact absurd hpriv (by decide)
  · exact Bool.false_ne_true (hmask.symm.trans hctl)

/-- A privileged write of the control byte, check by check (rule R275). -/
theorem msrCpsr_control (hmode : s.cpsr.mode ≠ .usr) (hmask : mask.getLsbD 0 = true) :
    msrCpsr mask v s =
      if v.getLsbD 5 = true then .refused .msrSetsT
      else
        match Mode.ofBits (v.extractLsb' 0 5) with
        | none => .refused .msrIllegalMode
        | some m => advance { s with
            cpsr := (if mask.getLsbD 3 = true then s.cpsr.writeFlags v
              else s.cpsr).writeControl v m } :=
  if_pos ⟨privileged_of_ne_usr hmode, hmask⟩

/-- The writable bits of the CPSR in this mode, of the bytes a field mask names. -/
def cpsrWritable (m : Mode) (mask : BitVec 4) : Word :=
  byteMask mask &&& (if m = .usr then 0xF0000000 else 0xF00000DF)

/-- Where the checks pass, MSR to the CPSR writes the bits that are writable and no other. -/
theorem msrCpsr_completes (hnext : s.HasNext)
    (hctl : s.cpsr.mode ≠ .usr → mask.getLsbD 0 = true →
      v.getLsbD 5 = false ∧ (Mode.ofBits (v.extractLsb' 0 5)).isSome = true) :
    ∃ p, msrCpsr mask v s = .next { s with cpsr := p, pc := s.pc + 4 } ∧
      p.toWord = maskedWrite (cpsrWritable s.cpsr.mode mask) s.cpsr.toWord v := by
  obtain ⟨hflags, hboth, -⟩ := byteMask_writable mask
  by_cases hmode : s.cpsr.mode = .usr
  · rw [cpsrWritable, if_pos hmode, hflags]
    exact ⟨_, (msrCpsr_flags (.inl hmode)).trans (advance_of_lt hnext), Cpsr.flagged_toWord ..⟩
  · rw [cpsrWritable, if_neg hmode, hboth, ← maskedWrite_maskedWrite, maskedWrite_ite,
      ← Cpsr.flagged_toWord]
    by_cases hmask : mask.getLsbD 0 = true
    · obtain ⟨ht, hlegal⟩ := hctl hmode hmask
      obtain ⟨m, hm⟩ := Option.isSome_iff_exists.mp hlegal
      rw [if_pos hmask, msrCpsr_control hmode hmask, hm, if_neg (Bool.eq_false_iff.mp ht)]
      exact ⟨_, advance_of_lt hnext, Cpsr.writeControl_toWord _ hm⟩
    · rw [if_neg hmask, msrCpsr_flags (.inr (Bool.eq_false_iff.mpr hmask))]
      exact ⟨_, advance_of_lt hnext, rfl⟩

/-! ### The SPSRs -/

theorem msrSpsr_of_no_spsr (h : s.cpsr.mode = .usr ∨ s.cpsr.mode = .sys) :
    msrSpsr mask v s = .refused .noSpsr := by
  rw [msrSpsr, Mode.exc_eq_none h]

/-- MSR to the SPSR of a mode that has one writes every bit but the reserved ones. -/
theorem msrSpsr_completes (hnext : s.HasNext) (he : s.cpsr.mode = e.toMode) :
    ∃ p, msrSpsr mask v s = .next { s with spsr := s.spsr.set e p, pc := s.pc + 4 } ∧
      p.toWord = maskedWrite (byteMask mask &&& 0xF00000FF) (s.spsr.get e).toWord v := by
  obtain ⟨-, -, hboth⟩ := byteMask_writable mask
  rw [msrSpsr, Mode.exc_eq_some he]
  refine ⟨_, advance_of_lt hnext, ?_⟩
  rw [apply_ite Spsr.toWord, Spsr.writeControl_toWord, Spsr.flagged_toWord, ← maskedWrite_ite,
    maskedWrite_maskedWrite, hboth]

end Msr

/-! ## The statements -/

/-- Settles O34: the operand passes the checks, and the write is the masked one. -/
theorem msrCpsrEffect : Obligations.MsrCpsrEffect := by
  intro c mask rotate imm8 rm s hrm hc hnext row hrow hreserved hctl writable
  rw [exec_msr hrm hc hrow, msrWrite_cpsr hreserved]
  obtain ⟨p, hwrite, hp⟩ := msrCpsr_completes hnext hctl
  exact ⟨_, hwrite, rfl, hp, fun _ => rfl, ⟨rfl, rfl, rfl⟩, fun _ => rfl⟩

/-- Settles O35: the SPSR written is the one of the mode. -/
theorem msrSpsrEffect : Obligations.MsrSpsrEffect := by
  intro c mask rotate imm8 rm s e hrm hc hnext he row hrow hreserved writable
  rw [exec_msr hrm hc hrow, msrWrite_spsr hreserved]
  obtain ⟨p, hwrite, hp⟩ := msrSpsr_completes (mask := mask) (v := row.2) hnext he
  refine ⟨_, hwrite, rfl, ?_, fun e' hne => ?_, rfl, fun _ => rfl, fun _ => rfl, rfl, rfl⟩
  · rw [SpsrBank.get_set, if_pos rfl, hp]
    rfl
  · rw [SpsrBank.get_set, if_neg hne.symm]

/-- Settles O36: the checks are the branches of the write, in their order. -/
theorem msrChecks : Obligations.MsrChecks := by
  intro c mask rotate imm8 rm s hrm hc row hrow
  have hexec (psr : PsrSel) : exec (row.1 psr) s = msrWrite psr mask row.2 s :=
    exec_msr hrm hc (List.mem_map_of_mem (f := fun form => (form.1 psr, form.2)) hrow)
  refine ⟨fun h psr => (hexec psr).trans (msrWrite_reserved h), fun h => ⟨fun hmode => ?_,
    fun hmode hmask => ?_⟩⟩
  · rw [hexec, msrWrite_spsr h, msrSpsr_of_no_spsr hmode]
  · rw [hexec, msrWrite_cpsr h, msrCpsr_control hmode hmask]
    exact ⟨fun ht => if_pos ht, fun ht hm => by rw [if_neg (Bool.eq_false_iff.mp ht), hm]⟩

/-- The one effect that leaves User mode is an exception, which saves the CPSR as it was. -/
theorem Effect.exception_of_leaves_usr {i : Option Instr} {s t : State} (h : Effect i s t)
    (hs : s.cpsr.mode = .usr) (ht : t.cpsr.mode ≠ .usr) :
    ∃ k u, t = takeException k u ∧ u.cpsr = s.cpsr := by
  cases h with
  | confined h => exact absurd (h.mode.trans hs) ht
  | exception k _ hcpsr => exact ⟨k, _, rfl, hcpsr⟩
  | @exceptionReturn e p target hexc =>
    exact absurd ((Mode.eq_toMode_of_exc hexc).symm.trans hs) e.toMode_ne_usr
  | @msrCpsr p _ hmode => exact absurd hs (hmode fun heq => ht (heq.trans hs))
  | msrSpsr => exact absurd hs ht

/-- Settles O57: the step that leaves User mode is the entry of an exception. -/
theorem userModeLeftByException : Obligations.UserModeLeftByException := by
  intro s t hs hstep ht
  obtain ⟨i, u, -, heff, rfl⟩ := step_effect hstep
  obtain ⟨k, w, rfl, hcpsr⟩ := heff.exception_of_leaves_usr hs ht
  refine ⟨k, rfl, rfl, rfl, rfl, ?_⟩
  show (takeException k w).spsr.get k.mode = _
  obtain ⟨-, -, hspsr, -⟩ := takeException_spec k w
  rw [hspsr, if_pos rfl, hcpsr]

end Sys2Proof.Machine
end

section
/-!
PROOFS. The loads: what they deliver, and their effect on Rd, the base and the pc: O37, O38, O40;
the addresses of the transfers: O41 (46_data_transfer.md rules R291 to R306).
-/

namespace Sys2Proof.Machine

/-! ## The data of an aligned load (rules R66, R71) -/

/-- An aligned word address is its own aligned word. -/
theorem and_mask_of_word_aligned {a : Word} (h : a.extractLsb' 0 2 = 0) :
    a &&& 0xFFFFFFFC = a := by
  obtain ⟨h0, h1⟩ := (aligned_iff_bits a).mp h
  refine BitVec.eq_of_getLsbD_eq fun k hk => ?_
  rw [BitVec.getLsbD_and]
  interval_cases k
  · rw [h0, Bool.false_and]
  · rw [h1, Bool.false_and]
  all_goals exact Bool.and_true _

theorem rotateRight_zero (v : Word) : v.rotateRight 0 = v := by
  simp [BitVec.rotateRight_def]

/-- At an aligned word address a word load rotates by nothing. -/
theorem State.loadWord_of_aligned (s : State) {a : Word} (h : a.extractLsb' 0 2 = 0) :
    s.loadWord a = loaded .word false a s := by
  rw [State.loadWord, and_mask_of_word_aligned h, h]
  exact rotateRight_zero _

/-- An aligned load delivers its bytes, little-endian and extended. -/
theorem loadValue_of_aligned {w : Width} {a : Word} (h : w.aligned a = true) (signed : Bool)
    (s : State) : loadValue w signed s a = loaded w signed a s := by
  cases w with
  | byte => cases signed <;> rfl
  | half => cases signed <;> rfl
  | word => exact s.loadWord_of_aligned (beq_iff_eq.mp h)

/-! ## An admitted load -/

section Load

variable {i : Instr} {x : TransferView} {s : State}

theorem exec_of_admitted_load (hx : transferView i = some x) (hload : x.load = true)
    (hr : x.Runs s) (hadm : x.Admitted s) :
    exec i s = finishLoad x.am x.rd (loaded x.width x.signed (x.address s) s) s := by
  obtain ⟨hal, hab, htext, hmap⟩ := hadm
  have hexec : exec i s = x.made s (x.address s) :=
    exec_made hx hr (checkAccess_of_aligned hal) hab htext hmap
  rw [hexec, TransferView.made_of_load hload, loadValue_of_aligned hal]

/-- Only LDR may have Rd = R15 (rule R306). -/
theorem TransferView.ldr_of_rd_fifteen (hx : transferView i = some x) (hr : x.Runs s)
    (hrd : x.rd = 15) : x.width = .word ∧ x.signed = false := by
  obtain ⟨hrestr, -⟩ := hr
  have hnone : x.rd15 = none := by
    unfold Addressing.restriction transferRestriction at hrestr
    split_ifs at hrestr
    exact hrestr
  obtain ⟨-, hword, hunsigned⟩ := ldr_of_rd15 hx hnone
  exact ⟨hword, hunsigned⟩

/-- The effect of a load whose Rd is not R15. -/
theorem exec_load_completes (hx : transferView i = some x) (hload : x.load = true)
    (hr : x.Runs s) (hrd : x.rd ≠ 15) (hadm : x.Admitted s) (hnext : s.HasNext) :
    ∃ t, exec i s = .next t ∧ t.pc = s.pc + 4 ∧
      (∀ p, t.reg p = if visible s.cpsr.mode x.rd = some p then
          loaded x.width x.signed (x.address s) s
        else if x.am.wb = true ∧ visible s.cpsr.mode x.am.rn = some p then x.am.offAddr s
        else s.reg p) ∧
      t.cpsr = s.cpsr ∧ SystemKept s t ∧ MemoryKept s t := by
  have ⟨hrestr, _⟩ := hr
  rw [exec_of_admitted_load hx hload hr hadm]
  exact finishLoad_completes hrestr hrd hnext _

/-! ## LDR to R15 (rule R293) -/

theorem finishLoad_fifteen_refused (am : Addressing) (s : State) {data : Word}
    (h : data.extractLsb' 0 2 = 0b10#2) :
    finishLoad am 15 data s = .refused .loadPcMisaligned := by
  rw [finishLoad, if_pos rfl, if_pos h]

/-- T and the pc from the data, together with the write-back. -/
theorem finishLoad_fifteen_completes {am : Addressing} (hbase : am.wb = true → am.rn ≠ 15)
    {data : Word} (h : data.extractLsb' 0 2 ≠ 0b10#2) (s : State) :
    ∃ t, finishLoad am 15 data s = .next t ∧ t.pc = data &&& 0xFFFFFFFE ∧
      t.cpsr = { s.cpsr with t := data.getLsbD 0 } ∧
      (∀ p, t.reg p =
        if am.wb = true ∧ visible s.cpsr.mode am.rn = some p then am.offAddr s else s.reg p) ∧
      SystemKept s t ∧ MemoryKept s t := by
  exact ⟨_, (if_pos rfl).trans (if_neg h), am.writeBack_pc _ _ hbase, am.writeBack_cpsr _ _,
    am.writeBack_reg _ _, ⟨am.writeBack_spsr _ _, am.writeBack_platform _ _,
    am.writeBack_boundary _ _⟩, am.writeBack_readByte _ _⟩

end Load

/-! ## The immediate offsets (rules R291, R301) -/

/-- The immediate is zero-extended. -/
theorem toNat_offset12_value (imm12 : BitVec 12) (s : State) :
    ((offset12 imm12).value s).toNat = imm12.toNat :=
  BitVec.toNat_setWidth_of_le (by decide)

/-- The two halves of the immediate, high one first, are zero-extended. -/
theorem toNat_offset8_value (immH immL : BitVec 4) (s : State) :
    ((offset8 immH immL).value s).toNat = 16 * immH.toNat + immL.toNat := by
  have hext : ((offset8 immH immL).value s).toNat = (immH ++ immL).toNat :=
    BitVec.toNat_setWidth_of_le (by decide)
  rw [hext, BitVec.toNat_append, ← Nat.shiftLeft_add_eq_or_of_lt immL.isLt, Nat.shiftLeft_eq,
    Nat.mul_comm]

/-! ## The statements -/

/-- Settles O37: Rd is not R15 by hypothesis. -/
theorem loadEffect : Obligations.LoadEffect := by
  intro i x s hx hload _ _ hr hrd hadm hnext
  exact exec_load_completes hx hload hr hrd hadm hnext

/-- Settles O38: Rd is not R15, for an LDR loads a word and extends no sign. -/
theorem halfwordLoadEffect : Obligations.HalfwordLoadEffect := by
  intro i x s hx hload hform hr hadm hnext
  have hrd : x.rd ≠ 15 := fun h15 => by
    obtain ⟨hword, hunsigned⟩ := TransferView.ldr_of_rd_fifteen hx hr h15
    rcases hform with hhalf | hsigned
    · cases hword.symm.trans hhalf
    · cases hunsigned.symm.trans hsigned
  exact exec_load_completes hx hload hr hrd hadm hnext

/-- Settles O40: the word loaded is refused, or goes to T and the pc. -/
theorem loadToPc : Obligations.LoadToPc := by
  intro i x s hx hload hr hrd hadm data
  have ⟨hrestr, _⟩ := hr
  obtain ⟨hword, hunsigned⟩ := TransferView.ldr_of_rd_fifteen hx hr hrd
  have hexec : exec i s = finishLoad x.am 15 data s := by
    rw [exec_of_admitted_load hx hload hr hadm, hrd, hword, hunsigned]
  rw [hexec]
  exact ⟨finishLoad_fifteen_refused x.am s,
    fun h => finishLoad_fifteen_completes (Addressing.base_ne_fifteen hrestr) h s⟩

/-- Settles O41: `offAddr` is the sum or the difference by its definition, which leaves the two
immediates. -/
theorem transferAddress : Obligations.TransferAddress := by
  intro s u w rn rm off imm12 immH immL k sh offAddr
  exact ⟨rfl, rfl, rfl, rfl, rfl, rfl, toNat_offset12_value imm12 s,
    toNat_offset8_value immH immL s, rfl, rfl, rfl⟩

end Sys2Proof.Machine
end

section
/-!
PROOFS. The exceptions: what the entry saves and sets, the returns of the handlers, UNDEFINED, and
the interrupts at a boundary: O46, O47, O48, O49, O50 (60_exceptions.md rules R331 to R347).
-/

namespace Sys2Proof.Machine

/-! ## The entry (rules R331, R340) -/

theorem takeException_pc (k : ExceptionKind) (s : State) : (takeException k s).pc = k.vector :=
  (takeException_spec k s).1

/-- R14 of the mode entered, read in that mode. -/
theorem takeException_link (k : ExceptionKind) (s : State) :
    (takeException k s).readReg 14 = s.pc + k.linkOffset := by
  obtain ⟨-, -, -, hreg, -⟩ := takeException_spec k s
  have hread : (takeException k s).readReg 14 = (takeException k s).reg (linkReg k.mode.toMode) :=
    State.readReg_of_visible (visible_link _)
  rw [hread, hreg, if_pos rfl]

theorem takeException_spsr_get (k : ExceptionKind) (s : State) (e : ExcMode) :
    (takeException k s).spsr.get e = if k.mode = e then Spsr.ofCpsr s.cpsr else s.spsr.get e :=
  SpsrBank.get_set s.spsr k.mode e (Spsr.ofCpsr s.cpsr)

theorem Spsr.toWord_ofCpsr (p : Cpsr) : (Spsr.ofCpsr p).toWord = p.toWord := rfl

/-- Settles O46: every row is the vector, the mode, the link and the mask of its kind. -/
theorem exceptionTable : Obligations.ExceptionTable := by
  intro s row hrow
  have entry (k : ExceptionKind) :
      (takeException k s).pc = k.vector ∧ (takeException k s).cpsr.mode = k.mode.toMode ∧
      (takeException k s).readReg 14 = s.pc + k.linkOffset ∧
      (takeException k s).cpsr.f = (s.cpsr.f || k.masksFiq) :=
    ⟨takeException_pc k s, takeException_mode k s, takeException_link k s, rfl⟩
  simp only [List.mem_cons, List.not_mem_nil, or_false] at hrow
  rcases hrow with rfl | rfl | rfl | rfl | rfl | rfl
  · exact entry .undefinedInstruction
  · exact entry .softwareInterrupt
  · exact entry .prefetchAbort
  · exact entry .dataAbort
  · exact entry .irq
  · exact entry .fiq

/-- Settles O47: the entry field by field, and the bank of SPSRs after a write of one. -/
theorem exceptionEntry : Obligations.ExceptionEntry := by
  intro k s
  refine ⟨entered_takeException k rfl rfl rfl rfl rfl rfl, ?_, fun e he => ?_⟩
  · rw [takeException_spsr_get, if_pos rfl, Spsr.toWord_ofCpsr]
  · rw [takeException_spsr_get, if_neg he.symm]

/-! ## UNDEFINED (rule R333) -/

theorem exec_undefined {c : Cond} {s : State} (hi : BitVec 20) (lo : BitVec 4)
    (hc : conditionPassed c s.cpsr = true) :
    exec (.undefined c hi lo) s = .next (takeException .undefinedInstruction s) := by
  show execUndefined c hi lo s = _
  rw [execUndefined, guarded_pass rfl hc]

/-- Settles O48: UNDEFINED is the entry of its exception and nothing else. -/
theorem undefinedEffect : Obligations.UndefinedEffect := fun _ hi lo s hc =>
  ⟨takeException .undefinedInstruction s, exec_undefined hi lo hc, takeException_pc _ s,
    takeException_mode _ s, takeException_link _ s,
    entered_takeException _ rfl rfl rfl rfl rfl rfl⟩

/-! ## The returns of the handlers (rule R342) -/

theorem Spsr.restored_ofCpsr (p : Cpsr) : (Spsr.ofCpsr p).restored p.mode = p := rfl

/-- The return undoes the entry: the SPSR holds the CPSR saved, whose mode is legal, so that
only the alignment of the target is left to ask (rule R203). -/
theorem returnFromException_takeException (k : ExceptionKind) {s : State} {target : Word}
    (h : returnAligned s.cpsr.t target = true) :
    returnFromException target (takeException k s) =
      .next { takeException k s with cpsr := s.cpsr, pc := target } := by
  have hsaved : (takeException k s).spsr.get k.mode = Spsr.ofCpsr s.cpsr := by
    rw [takeException_spsr_get, if_pos rfl]
  have hlegal : Mode.ofBits ((takeException k s).spsr.get k.mode).m = some s.cpsr.mode := by
    rw [hsaved]
    exact Mode.ofBits_toBits s.cpsr.mode
  rw [returnFromException_of_legal target (takeException_mode k s) hlegal, hsaved,
    Spsr.restored_ofCpsr]
  exact if_pos h

theorem returnAligned_arm {target : Word} (h : target.extractLsb' 0 2 = 0) :
    returnAligned false target = true :=
  beq_iff_eq.mpr h

/-- `MOVS PC, R14`. -/
theorem exec_movs_pc_link (s : State) :
    exec (.movShiftImm .al true 15 0 .lsl 14) s = returnFromException (s.readReg 14) s := by
  rw [exec_dp_writeResult (d := ⟨.mov, .al, true, 0, 15, .shiftImm 0 .lsl 14⟩) rfl rfl rfl rfl,
    writeResult_return, DpView.out_value]
  rfl

/-- An immediate that is not rotated is its eight bits (rule R171). -/
theorem rotatedImmediate_zero (imm8 : BitVec 8) : rotatedImmediate 0 imm8 = imm8.setWidth 32 := by
  simp [rotatedImmediate_eq]

/-- `SUBS PC, R14, #imm8`. -/
theorem exec_subs_pc_link (imm8 : BitVec 8) (s : State) :
    exec (.subImm .al true 14 15 0 imm8) s =
      returnFromException (s.readReg 14 - imm8.setWidth 32) s := by
  rw [exec_dp_writeResult (d := ⟨.sub, .al, true, 14, 15, .imm 0 imm8⟩) rfl rfl rfl rfl,
    writeResult_return, DpView.out_value, ← rotatedImmediate_zero]
  rfl

/-- `SUBS PC, R14` by the link offset of the exception returns to the address it was taken at. -/
theorem exec_subs_pc_link_resumes {k : ExceptionKind} {imm8 : BitVec 8} {s : State}
    (ht : s.cpsr.t = false) (hpc : s.pc.extractLsb' 0 2 = 0)
    (hoff : k.linkOffset = imm8.setWidth 32) :
    ∃ t, exec (.subImm .al true 14 15 0 imm8) (takeException k s) = .next t ∧ t.pc = s.pc ∧
      t.cpsr = s.cpsr := by
  have haligned : returnAligned s.cpsr.t s.pc = true := ht ▸ returnAligned_arm hpc
  rw [exec_subs_pc_link, takeException_link, hoff, BitVec.add_sub_cancel]
  exact ⟨_, returnFromException_takeException k haligned, rfl, rfl⟩

/-- Settles O49: MOVS returns to the link itself, SUBS to the link less its offset. -/
theorem handlerReturn : Obligations.HandlerReturn := by
  intro s ht hpc
  refine ⟨?_, fun k hk => ?_, exec_subs_pc_link_resumes ht hpc rfl⟩
  · have haligned : returnAligned s.cpsr.t (s.pc + 4) = true :=
      ht ▸ returnAligned_arm (aligned_add_four hpc)
    rw [exec_movs_pc_link, takeException_link]
    exact ⟨_, returnFromException_takeException .undefinedInstruction haligned, rfl, rfl⟩
  · have hoff : ∀ k ∈ [ExceptionKind.irq, .fiq, .prefetchAbort], k.linkOffset = 4 := by decide
    exact exec_subs_pc_link_resumes ht hpc (hoff k hk)

/-! ## Interrupts (rules R337 to R339, R346) -/

theorem State.fiqAsserted_iff (s : State) :
    s.fiqAsserted = true ↔ s.boundary ∈ s.platform.fiqAt := List.contains_iff_mem

theorem State.irqAsserted_iff (s : State) :
    s.irqAsserted = true ↔ s.boundary ∈ s.platform.irqAt := List.contains_iff_mem

theorem pendingInterrupt_fiq {s : State} (hfiq : s.boundary ∈ s.platform.fiqAt)
    (hf : s.cpsr.f = false) : pendingInterrupt s = some .fiq :=
  if_pos ⟨s.fiqAsserted_iff.mpr hfiq, hf⟩

/-- IRQ is looked at only where no FIQ is taken. -/
theorem pendingInterrupt_irq {s : State}
    (hno : s.boundary ∉ s.platform.fiqAt ∨ s.cpsr.f = true) (hirq : s.boundary ∈ s.platform.irqAt)
    (hi : s.cpsr.i = false) : pendingInterrupt s = some .irq := by
  have hfiq : ¬ (s.fiqAsserted = true ∧ s.cpsr.f = false) := fun ⟨hasserted, hf⟩ =>
    hno.elim (fun h => h (s.fiqAsserted_iff.mp hasserted)) (fun h => by simp [hf] at h)
  rw [pendingInterrupt, if_neg hfiq, if_pos ⟨s.irqAsserted_iff.mpr hirq, hi⟩]

/-- The step at a boundary with an interrupt pending is its entry (rule R346). -/
theorem step_of_interrupt {s : State} {k : ExceptionKind} (hhalt : s.platform.haltAddr ≠ some s.pc)
    (h : pendingInterrupt s = some k) :
    step s = .next { takeException k s with boundary := s.boundary + 1 } := by
  rw [step, cycle, if_neg hhalt, h]
  rfl

/-- Settles O50: the interrupt pending, FIQ before IRQ, is the one entered. -/
theorem interruptSampling : Obligations.InterruptSampling := fun _ hhalt =>
  ⟨fun hfiq hf => step_of_interrupt hhalt (pendingInterrupt_fiq hfiq hf),
    fun hno hirq hi => step_of_interrupt hhalt (pendingInterrupt_irq hno hirq hi)⟩

end Sys2Proof.Machine
end
